-- ==== Sys2Proof/Word.lean ====
section
/-! DEFINITION. The word types of the HB4720 and the sparse table that its arrays are held in. -/

namespace Sys2Proof

/-- A word of either interface: 32 bits, bit 31 the most significant (00_scope.md, Conventions). -/
abbrev Word := BitVec 32

/-- An array with one value a key, held as the list of the keys whose value is not the default.
The default is given to every operation (Machine/Table.lean). Assumption log 21. -/
structure Table (α : Type) where
  cells : List (Nat × α)
  deriving DecidableEq, Repr

/-- The table in which every key has the default value. -/
def Table.empty {α : Type} : Table α := ⟨[]⟩

end Sys2Proof
end

