-- ==== Sys2Proof/Syntax.lean ====
section
/-! DEFINITION. The commands: one constructor of Instr for each row of spec/opcode_table.json. -/

namespace Sys2Proof

/-- The name of a grant, generation:index (R21, R22). The index field is 8 bits wide. -/
structure Handle where
  generation : BitVec 4
  index : BitVec 8
  deriving DecidableEq, Repr

/-- The fields of word 0 that every request carries beside its op (R165, R192). -/
structure RequestHead where
  resume : Bool
  station : BitVec 6
  tag : BitVec 16
  deriving DecidableEq, Repr

/-- The body of an ASK word (R119). -/
structure AskFields where
  seq : BitVec 4
  countLessOne : BitVec 6
  pattern : BitVec 2
  cls : BitVec 2
  preemptible : Bool
  leaseCode : BitVec 4
  stream : BitVec 5
  deriving DecidableEq, Repr

/-- The fields of a CREATE request (R166, R192). -/
structure CreateFields where
  count : BitVec 7
  pattern : BitVec 2
  cls : BitVec 2
  preemptible : Bool
  stream : BitVec 5
  lease : BitVec 16
  deriving DecidableEq, Repr

/-- The commands, in the table's order. A docstring names the row and the rule that owns it. -/
inductive Instr where
  /-- DEVICE_RESET (R187): RESETn goes LOW, or power-on. -/
  | deviceReset
  /-- RESET_RELEASE (R2): RESETn goes HIGH with these levels on FLEN[1:0]. -/
  | resetRelease (flen : BitVec 2)
  /-- HIGHWAY_START (R6): a rising edge of HCLK while STOPPED. -/
  | highwayStart
  /-- FRAME_START (R9). -/
  | frameStart
  /-- DEPARTURE_COMPLETE (R108) of a station. -/
  | departureComplete (station : BitVec 6)
  /-- SLOT_EVENT (R10) of the slot in progress: ACT[1:0] and the bits shifted in from HSD. -/
  | slotEvent (act : BitVec 2) (hsd : Word)
  /-- KEEP (R130): the uplink slot in progress ends with this word, sense ONE. -/
  | keep (ack : BitVec 4)
  /-- JOIN (R102): likewise. -/
  | join (ack : BitVec 4)
  /-- ASK (R126): likewise. -/
  | ask (ack : BitVec 4) (fields : AskFields)
  /-- DROP (R128): likewise. -/
  | drop (ack : BitVec 4) (handle : Handle)
  /-- RENEW_WORD (R129): the uplink word RENEW; likewise. -/
  | renewWord (ack : BitVec 4) (handle : Handle) (leaseCode : BitVec 4)
  /-- LEAVE (R105): likewise. -/
  | leave (ack : BitVec 4)
  /-- DOWNLINK_ARBITRATION (R143). -/
  | downlinkArbitration
  /-- FRAME_END (R11). -/
  | frameEnd
  /-- TAINT_EXPIRED (R37) of a payload slot. -/
  | taintExpired (slot : BitVec 10)
  /-- RETRY_COUNTDOWN_EXPIRED (R142) of a station's head. -/
  | retryCountdownExpired (station : BitVec 6)
  /-- STRAY_HOLDOFF_EXPIRED (R138) of a station. -/
  | strayHoldoffExpired (station : BitVec 6)
  /-- LEASE_TICK (R85). -/
  | leaseTick
  /-- LEASE_EXPIRED (R89) of the record with this index. -/
  | leaseExpired (index : BitVec 8)
  /-- PLACEMENT_TAKE (R60). -/
  | placementTake
  /-- COMMIT_POINT (R76). -/
  | commitPoint
  /-- CREATE (R166). -/
  | create (head : RequestHead) (fields : CreateFields)
  /-- RESIZE (R166). -/
  | resize (head : RequestHead) (handle : Handle) (count : BitVec 7)
  /-- RELEASE (R167). -/
  | release (head : RequestHead) (handle : Handle)
  /-- RENEW (R169): the request, with its lease-given flag and lease ticks. -/
  | renew (head : RequestHead) (handle : Handle) (given : Bool) (lease : BitVec 16)
  /-- SET_STATION (R111). -/
  | setStation (head : RequestHead) (quota : BitVec 10) (maxClass : BitVec 2) (barred : Bool)
  /-- EVICT (R110). -/
  | evict (head : RequestHead)
  /-- RETIRE_ALL (R168). -/
  | retireAll (head : RequestHead)
  /-- LOOKUP_GRANT (R171). -/
  | lookupGrant (head : RequestHead) (handle : Handle)
  /-- LOOKUP_SLOT (R172). -/
  | lookupSlot (head : RequestHead) (slot : BitVec 10)
  /-- LOOKUP_STATION (R173). -/
  | lookupStation (head : RequestHead)
  /-- LIST_SLOTS (R174): the map selected is PLAN when `plan` is true, else ACTIVE. -/
  | listSlots (head : RequestHead) (handle : Handle) (start : BitVec 10) (plan : Bool)
  /-- CENSUS (R175). -/
  | census (head : RequestHead)
  /-- UNKNOWN_OP (R165): a request whose op code is none of 1..12. -/
  | unknownOp (head : RequestHead) (op : BitVec 4)
  /-- RQPOST (R161): a write to RQPOST. -/
  | rqpost (data : Word)
  /-- RSPOP (R163): a write to RSPOP. -/
  | rspop (data : Word)
  /-- RUN_REQUEST (R5): a write of CONTROL with RUN = 1. -/
  | runRequest
  /-- STOP_REQUEST (R5): a write of CONTROL with RUN = 0. -/
  | stopRequest
  /-- FRAME_LENGTH_WRITE (R16). -/
  | frameLengthWrite (data : Word)
  /-- EPOCH_LEAD_WRITE (R54). -/
  | epochLeadWrite (data : Word)
  /-- PRESENCE_LIMITS_WRITE (R101). -/
  | presenceLimitsWrite (data : Word)
  /-- NOTICE_TIMING_WRITE (R148). -/
  | noticeTimingWrite (data : Word)
  /-- FAULT_LIMIT_WRITE (R159). -/
  | faultLimitWrite (data : Word)
  /-- INTRUSION_COUNT_WRITE (R158). -/
  | intrusionCountWrite (data : Word)
  /-- INT_FLAGS_READ (R185). -/
  | intFlagsRead
  /-- INT_FLAGS_WRITE (R185). -/
  | intFlagsWrite (data : Word)
  /-- INT_ENABLE_WRITE (R186). -/
  | intEnableWrite (data : Word)
  /-- REGISTER_WRITE (R182): a write to the word address A[7:2]. -/
  | registerWrite (addr : BitVec 6) (data : Word)
  deriving DecidableEq, Repr

end Sys2Proof
end

