-- ==== Sys2Proof/Decode.lean ====
section
/-! DEFINITION. Decoding of table words. No row of spec/opcode_table.json gives bits (98_reader.md: n_rows_with_fixed
is 0), so no word spells a command. The words of the part's own interfaces are in Machine/Words.lean. -/

namespace Sys2Proof

/-- The command that a word of `nbits` bits spells by the bits of spec/opcode_table.json: none, since no row has bits.
Assumption log 17. -/
def decodeTableWord (_nbits _w : Nat) : Option Instr := none

end Sys2Proof
end

