-- ==== Sys2Proof/Config.lean ====
section
/-! DEFINITION. The constants of the HB4720. The spec leaves no value open, so there is no free value here. -/

namespace Sys2Proof.Config

/-- The number of grant records (R17). -/
def grantCount : Nat := 240

/-- The number of station addresses, 1..47 (R96). -/
def stationCount : Nat := 47

/-- The first payload slot (R1). -/
def firstPayload : Nat := 64

/-- The greatest number of records one station may hold (R60, check 6). -/
def grantLimit : Nat := 16

/-- The greatest number of candidates the preemptive pass adds (R73). -/
def candidateLimit : Nat := 4

/-- The greatest length of a station's notice queue (R135). -/
def noticeLimit : Nat := 8

/-- The number of stations served in one downlink arbitration (R144). -/
def servedLimit : Nat := 8

/-- The stray hold-off set when a LEFT reply is sent, in frames (R138). -/
def strayHoldoff : Nat := 16

/-- The length of the request queue (R162). -/
def requestLimit : Nat := 16

/-- The length of the result queue (R163). -/
def resultLimit : Nat := 32

/-- The greatest quota SET_STATION accepts (R111). -/
def quotaLimit : Nat := 960

/-- What a read of ID returns: revision 1, part code 0x4720, vendor code 0x3A7 (R181). -/
def identity : Word := 0x3A747201

end Sys2Proof.Config
end

