-- ==== Sys2Proof/Machine/State.lean ====
section
/-! DEFINITION. Everything the spec gives the HB4720 to hold, as plain data, and its value after reset. -/

namespace Sys2Proof.Machine

/-! ## Frame Timer (01_the_highway_frame.md) -/

/-- The frame length code: 0, 1 or 2 (R1, R2). -/
inductive LengthCode where
  | l256 | l512 | l1024
  deriving DecidableEq, Repr

/-- Which blocks have taken their part of the frame end that is due as steps of their own (R11; assumption log 8): the
Lease Unit its tick (R85), the Slot Map its decrement (R37), the Notice Unit its decrements (R138, R142). -/
structure EndParts where
  leases : Bool
  taint : Bool
  notices : Bool
  deriving DecidableEq, Repr

/-- No part of the frame end has been taken. -/
def EndParts.none : EndParts := { leases := false, taint := false, notices := false }

/-- Where a running frame stands among its events (R9 to R11, R143). -/
inductive FramePlace where
  /-- The frame end has continued the highway; the frame start of frame FN follows at the same edge (R7). -/
  | startDue
  /-- Slot n is in progress. -/
  | slot (n : Nat)
  /-- Slot 47 has closed; the downlink arbitration follows before slot 48 (R143). -/
  | arbitrationDue
  /-- Slot L−1 has closed; the frame end follows (R11), of which these parts are taken (assumption log 8). -/
  | endDue (taken : EndParts)
  deriving DecidableEq, Repr

/-- The timing state, with the place in the frame while RUNNING (R3). -/
inductive Timing where
  | stopped
  | running (place : FramePlace)
  deriving DecidableEq, Repr

/-- The pending request of the Frame Timer (R3). -/
inductive RunRequest where
  | none | start | stop
  deriving DecidableEq, Repr

/-- The Frame Timer's state (R3). -/
structure Timer where
  timing : Timing
  request : RunRequest
  fn : BitVec 16
  code : LengthCode
  deriving DecidableEq, Repr

/-! ## Configuration registers (11_register_window_interrupts_and_pins.md, R179, R182) -/

/-- The configuration registers, each with the block that reads it in R182. -/
structure Registers where
  epochLead : BitVec 8
  quietAfter : BitVec 8
  lostAfter : BitVec 8
  retryInterval : BitVec 4
  sendLimit : BitVec 4
  leaseWarn : BitVec 8
  idleLimit : BitVec 8
  faultLimit : BitVec 8
  taintFrames : BitVec 8
  preempt : Bool
  suspendOnFault : Bool
  leaseCodes : Vector (BitVec 16) 15
  deriving DecidableEq, Repr

/-! ## Grant Table (02_grant_records.md) -/

/-- The six states of a record (R17, R23). -/
inductive GrantState where
  | free | placing | pending | live | shifting | draining
  deriving DecidableEq, Repr

/-- Where a grant came from (R17). -/
inductive Origin where
  | uplink | localBus
  deriving DecidableEq, Repr

/-- The placement patterns (R65 to R67). -/
inductive Pattern where
  | any | block | even
  deriving DecidableEq, Repr

/-- A grant record (R17). -/
structure Grant where
  generation : BitVec 4
  state : GrantState
  owner : Option Nat
  origin : Origin
  cls : BitVec 2
  preemptible : Bool
  pattern : Pattern
  requested : Nat
  stream : BitVec 5
  tag : BitVec 16
  planCount : Nat
  activeCount : Nat
  commitSeq : BitVec 32
  leaseReload : BitVec 16
  leaseRemaining : BitVec 16
  leaseWarned : Bool
  idleTicks : BitVec 8
  usedThisTick : Bool
  faultCount : BitVec 8
  deriving DecidableEq, Repr

/-- A record at its FREE values, with the generation kept from its last freeing (R17). -/
def Grant.freeWith (generation : BitVec 4) : Grant :=
  { generation, state := .free, owner := none, origin := .uplink, cls := 0, preemptible := false, pattern := .any,
    requested := 0, stream := 0, tag := 0, planCount := 0, activeCount := 0, commitSeq := 0, leaseReload := 0,
    leaseRemaining := 0, leaseWarned := false, idleTicks := 0, usedThisTick := false, faultCount := 0 }

/-! ## Slot Map (03_the_slot_map_and_epochs.md) -/

/-- What a map names for a slot: a grant index, or none for FREE (R33). -/
abbrev Owner := Option Nat

/-- A change of one slot's owner (R40). -/
structure Change where
  fromOwner : Owner
  toOwner : Owner
  deriving DecidableEq, Repr

/-- A pending epoch (R38). It is OPEN or SEALED by the field of SlotMap that holds it. -/
structure Epoch where
  number : BitVec 8
  sealFrame : BitVec 16
  effective : BitVec 16
  changes : Table (Option Change)
  deriving DecidableEq, Repr

/-- The Slot Map's state (R33, R38). -/
structure SlotMap where
  active : Table Owner
  plan : Table Owner
  taint : Table (BitVec 8)
  openEpoch : Option Epoch
  sealedEpoch : Option Epoch
  epochCounter : BitVec 8
  deriving DecidableEq, Repr

/-! ## Placement Engine (04_placement.md) -/

/-- The two kinds of work (R57, R58). -/
inductive WorkKind where
  | localBus | uplink
  deriving DecidableEq, Repr

/-- The kind of the placement in flight with its subject, lease and request sequence (R57). -/
inductive PlacementKind where
  | create (index : Nat) (lease : BitVec 16)
  | resize (handle : Handle)
  | ask (index : Nat) (seq : BitVec 4) (leaseCode : BitVec 4)
  deriving DecidableEq, Repr

/-- The outcome of a search (R57). -/
inductive Found where
  | noRoom
  | chosen (slots : List Nat) (victims : List Handle)
  deriving DecidableEq, Repr

/-- The placement context (R57). -/
structure Context where
  kind : PlacementKind
  station : Nat
  newCount : Nat
  outcome : Found
  deriving DecidableEq, Repr

/-- The Placement Engine's state (R57): IDLE while the context is absent, BUSY while it is present. -/
structure Engine where
  context : Option Context
  lastKind : WorkKind
  deriving DecidableEq, Repr

/-! ## Station Roster (06_the_station_roster.md) -/

/-- The five states of a station (R96). -/
inductive StationState where
  | absent | joining | member | quiet | leaving
  deriving DecidableEq, Repr

/-- Why a station last left (R96). -/
inductive LeaveReason where
  | left | lost | noAck | evicted | rejoin
  deriving DecidableEq, Repr

/-- A station record (R96). -/
structure Station where
  state : StationState
  leaveReason : Option LeaveReason
  missed : BitVec 8
  quota : BitVec 10
  maxClass : BitVec 2
  barred : Bool
  suspended : Bool
  badWords : BitVec 8
  clashes : BitVec 8
  held : Nat
  planned : Nat
  deriving DecidableEq, Repr

/-- A station record after reset (R96, R117). -/
def Station.fresh : Station :=
  { state := .absent, leaveReason := none, missed := 0, quota := 64, maxClass := 1, barred := false, suspended := false,
    badWords := 0, clashes := 0, held := 0, planned := 0 }

/-! ## Uplink Decoder (07_uplink_signalling.md) -/

/-- A station's ask status, with its ask sequence where there is one (R121). -/
inductive AskStatus where
  | none
  | waiting (seq : BitVec 4)
  | inFlight (seq : BitVec 4)
  deriving DecidableEq, Repr

/-- What the Decoder holds for a station (R121). -/
structure AskRecord where
  status : AskStatus
  lastAnswered : Option (BitVec 4)
  deriving DecidableEq, Repr

/-- The Decoder's record of a station after reset (R132). -/
def AskRecord.fresh : AskRecord := { status := .none, lastAnswered := none }

/-- An entry of the Uplink Ask Queue (R122): the station and the fields of its ASK. -/
structure Ask where
  station : Nat
  fields : AskFields
  deriving DecidableEq, Repr

/-! ## Notice Unit (08_notices_and_the_downlink.md) -/

/-- The status codes of results and REFUSED notices (R193). -/
inductive Status where
  | ok | badRequest | staleHandle | notMember | suspended | cls | grantLimit | quota | tableFull | noRoom | retiring
  | busy | stationGone
  deriving DecidableEq, Repr

/-- The reasons of a REVOKED notice (R134). -/
inductive RevokeReason where
  | dropped | released | preempted | expired | idle | faulted
  deriving DecidableEq, Repr

/-- A notice: its kind and the fields of that kind (R133). -/
inductive Notice where
  | joined
  | granted (handle : Handle) (stream : BitVec 5) (seq : BitVec 4) (effective : BitVec 16)
  | shifted (handle : Handle) (count : Nat) (effective : BitVec 16)
  | revoked (handle : Handle) (reason : RevokeReason) (effective : BitVec 16)
  | refusedAsk (reason : Status) (seq : BitVec 4)
  | refusedHandle (reason : Status) (handle : Handle)
  | leaseLow (handle : Handle) (remaining : BitVec 16)
  | renewed (handle : Handle) (remaining : BitVec 16)
  | syncLost
  | left
  deriving DecidableEq, Repr

/-- The send state of a queue's head (R135). -/
structure SendState where
  /-- unassigned, 0 for a LEFT reply, or 1..15 -/
  sequence : Option (BitVec 4)
  sends : Nat
  countdown : Nat
  deriving DecidableEq, Repr

/-- A head that has not been sent; also the value held while the queue is empty (R135; assumption log 19). -/
def SendState.unsent : SendState := { sequence := none, sends := 0, countdown := 0 }

/-- What the Notice Unit holds for a station (R135). -/
structure Mailbox where
  queue : List Notice
  head : SendState
  nextSeq : BitVec 4
  holdoff : Nat
  deriving DecidableEq, Repr

/-- The Notice Unit's record of a station after reset (R150). -/
def Mailbox.fresh : Mailbox := { queue := [], head := .unsent, nextSeq := 1, holdoff := 0 }

/-! ## Request Port (10_requests_and_results.md) -/

/-- Four words: the staging words, a request entry or a result entry (R161, R192, R193). -/
structure Quad where
  w0 : Word
  w1 : Word
  w2 : Word
  w3 : Word
  deriving DecidableEq, Repr

/-- The Request Port's queues and state (R161 to R164). -/
structure Port where
  staging : Quad
  requests : List Quad
  results : List Quad
  /-- IDLE while none, IN_PROGRESS with this request otherwise -/
  inProgress : Option Quad
  deriving DecidableEq, Repr

/-- The interrupt flags, their fresh markers and their enables, RESULT in bit 0 to CLASH in bit 8 (R180, R184, R186). -/
structure Interrupts where
  flags : BitVec 9
  fresh : BitVec 9
  enable : BitVec 9
  deriving DecidableEq, Repr

/-! ## The whole part -/

/-- The state of the HB4720 and the queue of commands that wait for it. -/
structure State where
  /-- RESETn is held LOW (R187). -/
  inReset : Bool
  timer : Timer
  cfg : Registers
  /-- Grant records by index 0..239; an unlisted record is FREE with generation 0. -/
  grants : Table Grant
  /-- The Free Record Queue, head first (R27). -/
  freeQueue : List Nat
  commitCounter : BitVec 32
  map : SlotMap
  engine : Engine
  /-- Station records by address 1..47; an unlisted record is as after reset. -/
  stations : Table Station
  /-- The Uplink Decoder's records by address. -/
  asks : Table AskRecord
  /-- The Uplink Ask Queue, head first (R122). -/
  askQueue : List Ask
  /-- The Notice Unit's records by address. -/
  mailboxes : Table Mailbox
  arbiterPointer : Nat
  /-- The words made up for slots 48 onwards of the frame (R145). -/
  downlink : List Word
  intrusions : BitVec 16
  port : Port
  ints : Interrupts
  /-- The word D[31:0] carried at the last read access that is a command (R178; assumption log 12). -/
  readData : Word
  /-- The commands that wait, first in first out. -/
  pending : List Instr
  deriving DecidableEq, Repr

/-- Why the part stops. Nothing in the spec stops it, so no meaning raises a fault and there is none (INVENTORY.md, Faults). -/
inductive Fault where
  deriving DecidableEq, Repr

/-- Why a command has no meaning. -/
inductive Refusal where
  /-- Raised by exec alone, for a command not modelled yet. Safe: the model says nothing of such a command. No arm uses it. -/
  | notModelled (mnemonic : String)
  deriving DecidableEq, Repr

/-- LEASE_CODE1..LEASE_CODE15 after reset: 64·k lease ticks (R84). -/
def resetLeaseCodes : Vector (BitVec 16) 15 :=
  #v[64, 128, 192, 256, 320, 384, 448, 512, 576, 640, 704, 768, 832, 896, 960]

/-- The configuration registers after reset (R179). -/
def Registers.reset : Registers :=
  { epochLead := 16, quietAfter := 4, lostAfter := 32, retryInterval := 4, sendLimit := 8, leaseWarn := 8,
    idleLimit := 0, faultLimit := 8, taintFrames := 64, preempt := true, suspendOnFault := true,
    leaseCodes := resetLeaseCodes }

/-- The part right after reset (R187): every block at its reset values (R3, R32, R56, R57, R84, R117, R132, R150, R151,
R177, R184, R186). RESETn is released and the frame length code is 0 (DESIGN CHOICE, assumption log 1; unsafe).
`readData` is 0 (DESIGN CHOICE, log 12; unsafe) and `downlink` empty (DESIGN CHOICE, log 14; safe). -/
def State.reset : State :=
  { inReset := false
    timer := { timing := .stopped, request := .none, fn := 0, code := .l256 }
    cfg := .reset
    grants := .empty
    freeQueue := List.range Config.grantCount
    commitCounter := 0
    map := { active := .empty, plan := .empty, taint := .empty, openEpoch := none, sealedEpoch := none,
             epochCounter := 0 }
    engine := { context := none, lastKind := .uplink }
    stations := .empty
    asks := .empty
    askQueue := []
    mailboxes := .empty
    arbiterPointer := 47
    downlink := []
    intrusions := 0
    port := { staging := ⟨0, 0, 0, 0⟩, requests := [], results := [], inProgress := none }
    ints := { flags := 0, fresh := 0, enable := 0 }
    readData := 0
    pending := [] }

end Sys2Proof.Machine
end

