-- ==== Sys2Proof/Machine/Flags.lean ====
section
/-! DEFINITION. The nine interrupt flags with their fresh markers and enables (R184 to R186), and saturating counts. -/

namespace Sys2Proof.Machine

/-- The interrupt flags (R184). -/
inductive Flag where
  | result | reqOverrun | station | noticeOverrun | intrusion | fault | configRefused | epoch | clash
  deriving DecidableEq, Repr

/-- A flag's bit in INT_FLAGS and INT_ENABLE (R180). -/
def Flag.bit : Flag → Nat
  | .result => 0
  | .reqOverrun => 1
  | .station => 2
  | .noticeOverrun => 3
  | .intrusion => 4
  | .fault => 5
  | .configRefused => 6
  | .epoch => 7
  | .clash => 8

/-- The word of nine bits with only this flag's bit set. -/
def Flag.mask (f : Flag) : BitVec 9 := 1#9 <<< f.bit

/-- A cause sets its flag, whatever the flag and its enable hold, and its fresh marker becomes yes (R184). -/
def Interrupts.raise (f : Flag) (x : Interrupts) : Interrupts :=
  { x with flags := x.flags ||| f.mask, fresh := x.fresh ||| f.mask }

/-- A read of INT_FLAGS sets every fresh marker to no (R185). -/
def Interrupts.afterRead (x : Interrupts) : Interrupts := { x with fresh := 0 }

/-- A write to INT_FLAGS: a flag whose bit is 1 in the word becomes 0 where its fresh marker is no (R185). -/
def Interrupts.clear (w : BitVec 9) (x : Interrupts) : Interrupts :=
  { x with flags := x.flags &&& ~~~(w &&& ~~~x.fresh) }

/-- IRQn is driven LOW while at least one flag and its enable are both 1 (R186). -/
def Interrupts.asserted (x : Interrupts) : Bool := decide (x.flags &&& x.enable ≠ 0)

/-- Whether a flag is 1. -/
def Interrupts.isSet (f : Flag) (x : Interrupts) : Bool := x.flags.getLsbD f.bit

/-- Whether a flag's fresh marker is yes. -/
def Interrupts.isFresh (f : Flag) (x : Interrupts) : Bool := x.fresh.getLsbD f.bit

/-- A saturating count goes up by 1 and stops at its largest value (00_scope.md, Conventions). -/
def satInc {n : Nat} (x : BitVec n) : BitVec n := if x = BitVec.allOnes n then x else x + 1

/-- Decrement a count that is nonzero (R37, R142). -/
def decNonzero {n : Nat} (x : BitVec n) : BitVec n := if x = 0 then x else x - 1

end Sys2Proof.Machine
end

