-- ==== Sys2Proof/Machine/Words.lean ====
section
/-! DEFINITION. The layouts of every word on either interface (12_word_formats.md, R189 to R193). A word is written as
its fields from bit 31 down, joined; a zero stands where no field does. -/

namespace Sys2Proof.Machine

/-! ## Parity (R189) -/

/-- Whether the number of 1 bits is odd. -/
def oddOnes {n : Nat} (w : BitVec n) : Bool := (List.range n).foldl (fun p i => p ^^ w.getLsbD i) false

/-- A highway word: bit 31 is set so that the number of 1 bits in the whole word is odd. -/
def withParity (body : BitVec 31) : Word := BitVec.ofBool (!oddOnes body) ++ body

/-! ## Codes -/

/-- A handle as it stands in bits 11:0 of every word that holds one (R191, R192). -/
def handleBits (h : Handle) : BitVec 12 := h.generation ++ h.index

/-- The handle in bits 11:0 of a word. -/
def handleOf (w : Word) : Handle := { generation := w.extractLsb' 8 4, index := w.extractLsb' 0 8 }

/-- Frame length codes (R190). -/
def LengthCode.bits : LengthCode → BitVec 2
  | .l256 => 0
  | .l512 => 1
  | .l1024 => 2

/-- The code held for two bits of FLEN or of a FRAME_LENGTH write: 3 is held as 2 (R2, R16). -/
def LengthCode.ofBits (b : BitVec 2) : LengthCode :=
  if b = 0 then .l256 else if b = 1 then .l512 else .l1024

/-- Pattern codes; 3 is invalid (R119). -/
def Pattern.ofBits (b : BitVec 2) : Option Pattern :=
  if b = 0 then some .any else if b = 1 then some .block else if b = 2 then some .even else none

/-- Pattern codes in LOOKUP_GRANT (R193). -/
def Pattern.bits : Pattern → BitVec 2
  | .any => 0
  | .block => 1
  | .even => 2

/-- Status codes (R193). -/
def Status.code : Status → BitVec 4
  | .ok => 0
  | .badRequest => 1
  | .staleHandle => 2
  | .notMember => 3
  | .suspended => 4
  | .cls => 5
  | .grantLimit => 6
  | .quota => 7
  | .tableFull => 8
  | .noRoom => 9
  | .retiring => 10
  | .busy => 11
  | .stationGone => 12

/-- REVOKED reason codes (R191). -/
def RevokeReason.code : RevokeReason → BitVec 3
  | .dropped => 0
  | .released => 1
  | .preempted => 2
  | .expired => 3
  | .idle => 4
  | .faulted => 5

/-- Grant state codes (R193). -/
def GrantState.code : GrantState → BitVec 3
  | .free => 0
  | .placing => 1
  | .pending => 2
  | .live => 3
  | .shifting => 4
  | .draining => 5

/-- Origin bit (R193). -/
def Origin.isLocal : Origin → Bool
  | .uplink => false
  | .localBus => true

/-- Station state codes (R193). -/
def StationState.code : StationState → BitVec 3
  | .absent => 0
  | .joining => 1
  | .member => 2
  | .quiet => 3
  | .leaving => 4

/-- Leave reason codes, 0 for none (R193). -/
def leaveReasonCode : Option LeaveReason → BitVec 3
  | none => 0
  | some .left => 1
  | some .lost => 2
  | some .noAck => 3
  | some .evicted => 4
  | some .rejoin => 5

/-- Ask status codes (R193). -/
def AskStatus.code : AskStatus → BitVec 2
  | .none => 0
  | .waiting _ => 1
  | .inFlight _ => 2

/-- The ask sequence, where there is one (R121). -/
def AskStatus.seq : AskStatus → Option (BitVec 4)
  | .none => Option.none
  | .waiting q => some q
  | .inFlight q => some q

/-! ## Highway words (R190, R191) -/

/-- What a good uplink word asks for (R118 to R120). -/
inductive UplinkBody where
  | keep
  | join
  | ask (fields : AskFields)
  | drop (handle : Handle)
  | renew (handle : Handle) (leaseCode : BitVec 4)
  | leave
  deriving DecidableEq, Repr

/-- The ack field (R190). -/
def uplinkAck (w : Word) : BitVec 4 := w.extractLsb' 24 4

/-- The fields of an ASK word (R190). -/
def askFieldsOf (w : Word) : AskFields :=
  { seq := w.extractLsb' 20 4, countLessOne := w.extractLsb' 14 6, pattern := w.extractLsb' 12 2,
    cls := w.extractLsb' 10 2, preemptible := w.getLsbD 9, leaseCode := w.extractLsb' 5 4,
    stream := w.extractLsb' 0 5 }

/-- The kind and body of an uplink word; none for the unknown kinds 6 and 7 (R118, R190). -/
def uplinkBody (w : Word) : Option UplinkBody :=
  match (w.extractLsb' 28 3).toNat with
  | 0 => some .keep
  | 1 => some .join
  | 2 => some (.ask (askFieldsOf w))
  | 3 => some (.drop (handleOf w))
  | 4 => some (.renew (handleOf w) (w.extractLsb' 12 4))
  | 5 => some .leave
  | _ => none

/-- The kind code of an uplink body (R118). -/
def UplinkBody.kind : UplinkBody → BitVec 3
  | .keep => 0
  | .join => 1
  | .ask _ => 2
  | .drop _ => 3
  | .renew _ _ => 4
  | .leave => 5

/-- Bits 23:0 of an uplink word, with every bit that has no meaning 0 (R189, R190). -/
def UplinkBody.bits : UplinkBody → BitVec 24
  | .keep => 0
  | .join => 0
  | .ask f => f.seq ++ f.countLessOne ++ f.pattern ++ f.cls ++ BitVec.ofBool f.preemptible ++ f.leaseCode ++ f.stream
  | .drop h => 0#12 ++ handleBits h
  | .renew h code => 0#8 ++ code ++ handleBits h
  | .leave => 0

/-- The uplink word that a station drives for this ack and body (R190). -/
def uplinkWord (ack : BitVec 4) (b : UplinkBody) : Word := withParity (b.kind ++ ack ++ b.bits)

/-- The sync word of frame `fn` (R13, R190). -/
def syncWord (code : LengthCode) (fn : BitVec 16) : Word := withParity (0#13 ++ code.bits ++ fn)

/-- The filler word: every field 0 (R191). -/
def fillerWord : Word := withParity 0

/-- The kind code of a notice (R191). -/
def Notice.kindCode : Notice → BitVec 4
  | .joined => 1
  | .granted .. => 2
  | .shifted .. => 3
  | .revoked .. => 4
  | .refusedAsk .. => 5
  | .refusedHandle .. => 5
  | .leaseLow .. => 6
  | .renewed .. => 7
  | .syncLost => 8
  | .left => 9

/-- Word A, bits 16:0 (R191). -/
def Notice.bodyHead : Notice → BitVec 17
  | .joined => 0
  | .granted h stream _ _ => stream ++ handleBits h
  | .shifted h _ _ => 0#5 ++ handleBits h
  | .revoked h reason _ => 0#2 ++ reason.code ++ handleBits h
  | .refusedAsk reason seq => 0#1 ++ reason.code ++ 0#8 ++ seq
  | .refusedHandle reason h => 1#1 ++ reason.code ++ handleBits h
  | .leaseLow h _ => 0#5 ++ handleBits h
  | .renewed h _ => 0#5 ++ handleBits h
  | .syncLost => 0
  | .left => 0

/-- Word B, bits 30:0 (R191). -/
def Notice.bodyTail : Notice → BitVec 31
  | .joined => 0
  | .granted _ _ seq effective => effective ++ 0#11 ++ seq
  | .shifted _ count effective => effective ++ 0#8 ++ BitVec.ofNat 7 count
  | .revoked _ _ effective => effective ++ 0#15
  | .refusedAsk _ _ => 0
  | .refusedHandle _ _ => 0
  | .leaseLow _ remaining => 0#15 ++ remaining
  | .renewed _ remaining => 0#15 ++ remaining
  | .syncLost => 0
  | .left => 0

/-- Words A and B of a transmission to station `a` with this sequence (R145, R191). -/
def noticeWords (a : Nat) (seq : BitVec 4) (n : Notice) : List Word :=
  [withParity (BitVec.ofNat 6 a ++ seq ++ n.kindCode ++ n.bodyHead), withParity n.bodyTail]

/-- The TALK code of an owner: the index, or 0xFF for FREE (R190). -/
def talkCode : Owner → BitVec 8
  | none => 0xFF
  | some i => BitVec.ofNat 8 i

/-! ## Result entries (R193) -/

/-- Word 0 of a result. -/
def resultWord0 (tag : BitVec 16) (inUse : BitVec 8) (st : Status) (op : BitVec 4) : Word :=
  tag ++ inUse ++ st.code ++ op

/-- The epoch field: the number in bits 7:0 and bit 8 set where an epoch is named. -/
def epochField : Option (BitVec 8) → Word
  | none => 0
  | some n => 0#23 ++ 1#1 ++ n

/-- A handle alone in a word. -/
def handleWord (h : Handle) : Word := 0#20 ++ handleBits h

/-- An owner field of LOOKUP_SLOT: the handle in bits 11:0, or bit 16 for FREE. -/
def ownerField : Option Handle → Word
  | none => 0#15 ++ 1#1 ++ 0#16
  | some h => handleWord h

/-- LOOKUP_GRANT, words 1 to 3. -/
def lookupGrantWords (g : Grant) : Word × Word × Word :=
  (g.pattern.bits ++ g.cls ++ g.state.code ++ g.stream ++ BitVec.ofNat 6 (g.owner.getD 0)
     ++ BitVec.ofNat 6 (g.requested - 1) ++ g.faultCount,
   BitVec.ofBool g.preemptible ++ BitVec.ofBool g.origin.isLocal ++ BitVec.ofNat 7 g.activeCount
     ++ BitVec.ofNat 7 g.planCount ++ g.tag,
   g.commitSeq.setWidth 16 ++ g.leaseRemaining)

/-- LOOKUP_STATION, words 1 to 3. -/
def lookupStationWords (r : Station) (k : AskRecord) (queued : Nat) : Word × Word × Word :=
  (BitVec.ofNat 4 queued ++ r.maxClass ++ r.quota ++ r.missed ++ BitVec.ofBool r.suspended ++ BitVec.ofBool r.barred
     ++ leaveReasonCode r.leaveReason ++ r.state.code,
   BitVec.ofNat 10 r.planned ++ 0#1 ++ BitVec.ofNat 5 r.held ++ r.clashes ++ r.badWords,
   0#16 ++ k.lastAnswered.getD 0 ++ 0#3 ++ BitVec.ofBool k.lastAnswered.isSome ++ k.status.seq.getD 0 ++ 0#2
     ++ k.status.code)

/-- Three slots of LIST_SLOTS in bits 9:0, 19:10 and 29:20; a missing one reads 0. -/
def threeSlots (l : List Nat) : Word :=
  0#2 ++ BitVec.ofNat 10 (l.getD 2 0) ++ BitVec.ofNat 10 (l.getD 1 0) ++ BitVec.ofNat 10 (l.getD 0 0)

/-- LIST_SLOTS, words 1 to 3, from every slot found in ascending order. -/
def listSlotsWords (plan : Bool) (found : List Nat) : Word × Word × Word :=
  (0#27 ++ BitVec.ofBool plan ++ BitVec.ofBool (decide (6 < found.length)) ++ BitVec.ofNat 3 (min found.length 6),
   threeSlots (found.take 3),
   threeSlots ((found.drop 3).take 3))

end Sys2Proof.Machine
end

