-- ==== Sys2Proof/Machine/Operands.lean ====
section
/-! DEFINITION. The operand forms of the commands: the fields of a request entry (R192), read and written, the
activity sense (R14), and the fields of register writes (R180). -/

namespace Sys2Proof.Machine

/-! ## Activity sense (R14) -/

/-- The activity sense of a slot. -/
inductive Sense where
  | silent | one | many
  deriving DecidableEq, Repr

/-- ACT[1:0]: 00 SILENT, 01 ONE, 10 and 11 MANY (R14). -/
def Sense.ofAct (act : BitVec 2) : Sense := if act = 0 then .silent else if act = 1 then .one else .many

/-! ## Request entries (R192) -/

/-- The request ops (R165). -/
inductive Op where
  | create | resize | release | renew | setStation | evict | retireAll | lookupGrant | lookupSlot | lookupStation
  | listSlots | census | unknown
  deriving DecidableEq, Repr

/-- The op a code stands for; 0 and 13..15 are unknown ops (R192). -/
def Op.ofCode (c : BitVec 4) : Op :=
  match c.toNat with
  | 1 => .create
  | 2 => .resize
  | 3 => .release
  | 4 => .renew
  | 5 => .setStation
  | 6 => .evict
  | 7 => .retireAll
  | 8 => .lookupGrant
  | 9 => .lookupSlot
  | 10 => .lookupStation
  | 11 => .listSlots
  | 12 => .census
  | _ => .unknown

/-- Word 0: op code 3:0. -/
def Quad.opCode (e : Quad) : BitVec 4 := e.w0.extractLsb' 0 4
/-- Word 0: the op. -/
def Quad.op (e : Quad) : Op := .ofCode e.opCode
/-- Word 0: RESUME, bit 7. -/
def Quad.resume (e : Quad) : Bool := e.w0.getLsbD 7
/-- Word 0: station 13:8, as a number. -/
def Quad.station (e : Quad) : Nat := (e.w0.extractLsb' 8 6).toNat
/-- Word 0: tag 31:16. -/
def Quad.tag (e : Quad) : BitVec 16 := e.w0.extractLsb' 16 16
/-- Word 1: handle 11:0 of RESIZE, RELEASE, RENEW, LOOKUP_GRANT and LIST_SLOTS. -/
def Quad.handle (e : Quad) : Handle := handleOf e.w1
/-- Words 1 and 2: the fields of CREATE. -/
def Quad.createFields (e : Quad) : CreateFields :=
  { count := e.w1.extractLsb' 0 7, pattern := e.w1.extractLsb' 8 2, cls := e.w1.extractLsb' 12 2,
    preemptible := e.w1.getLsbD 16, stream := e.w1.extractLsb' 24 5, lease := e.w2.extractLsb' 0 16 }
/-- Word 2: new count 6:0 of RESIZE. -/
def Quad.newCount (e : Quad) : BitVec 7 := e.w2.extractLsb' 0 7
/-- Word 2: lease given, bit 16 of RENEW. -/
def Quad.leaseGiven (e : Quad) : Bool := e.w2.getLsbD 16
/-- Word 2: lease ticks 15:0 of RENEW. -/
def Quad.lease (e : Quad) : BitVec 16 := e.w2.extractLsb' 0 16
/-- Word 1: quota 9:0 of SET_STATION. -/
def Quad.quota (e : Quad) : BitVec 10 := e.w1.extractLsb' 0 10
/-- Word 1: max class 13:12 of SET_STATION. -/
def Quad.maxClass (e : Quad) : BitVec 2 := e.w1.extractLsb' 12 2
/-- Word 1: barred, bit 16 of SET_STATION. -/
def Quad.barred (e : Quad) : Bool := e.w1.getLsbD 16
/-- Word 1: slot 9:0 of LOOKUP_SLOT. -/
def Quad.slot (e : Quad) : Nat := (e.w1.extractLsb' 0 10).toNat
/-- Word 2: start slot 9:0 of LIST_SLOTS. -/
def Quad.startSlot (e : Quad) : Nat := (e.w2.extractLsb' 0 10).toNat
/-- Word 2: map, bit 16 of LIST_SLOTS: 0 ACTIVE, 1 PLAN. -/
def Quad.selectsPlan (e : Quad) : Bool := e.w2.getLsbD 16

/-- Word 0 of a request with this op code. -/
def requestWord0 (op : BitVec 4) (h : RequestHead) : Word :=
  h.tag ++ 0#2 ++ h.station ++ BitVec.ofBool h.resume ++ 0#3 ++ op

/-- The entry of a request that has no fields of its own: EVICT, RETIRE_ALL, LOOKUP_STATION, CENSUS, unknown ops. -/
def plainEntry (op : BitVec 4) (h : RequestHead) : Quad := ⟨requestWord0 op h, 0, 0, 0⟩

/-- The entry of a request whose one field is a handle: RELEASE, LOOKUP_GRANT. -/
def handleEntry (op : BitVec 4) (h : RequestHead) (g : Handle) : Quad := ⟨requestWord0 op h, handleWord g, 0, 0⟩

/-- The entry of a CREATE. -/
def createEntry (h : RequestHead) (f : CreateFields) : Quad :=
  ⟨requestWord0 1 h,
   0#3 ++ f.stream ++ 0#7 ++ BitVec.ofBool f.preemptible ++ 0#2 ++ f.cls ++ 0#2 ++ f.pattern ++ 0#1 ++ f.count,
   0#16 ++ f.lease, 0⟩

/-- The entry of a RESIZE. -/
def resizeEntry (h : RequestHead) (g : Handle) (count : BitVec 7) : Quad :=
  ⟨requestWord0 2 h, handleWord g, 0#25 ++ count, 0⟩

/-- The entry of a RENEW. -/
def renewEntry (h : RequestHead) (g : Handle) (given : Bool) (lease : BitVec 16) : Quad :=
  ⟨requestWord0 4 h, handleWord g, 0#15 ++ BitVec.ofBool given ++ lease, 0⟩

/-- The entry of a SET_STATION. -/
def setStationEntry (h : RequestHead) (quota : BitVec 10) (maxClass : BitVec 2) (barred : Bool) : Quad :=
  ⟨requestWord0 5 h, 0#15 ++ BitVec.ofBool barred ++ 0#2 ++ maxClass ++ 0#2 ++ quota, 0, 0⟩

/-- The entry of a LOOKUP_SLOT. -/
def lookupSlotEntry (h : RequestHead) (slot : BitVec 10) : Quad := ⟨requestWord0 9 h, 0#22 ++ slot, 0, 0⟩

/-- The entry of a LIST_SLOTS. -/
def listSlotsEntry (h : RequestHead) (g : Handle) (start : BitVec 10) (plan : Bool) : Quad :=
  ⟨requestWord0 11 h, handleWord g, 0#15 ++ BitVec.ofBool plan ++ 0#6 ++ start, 0⟩

/-- The four words of the request that a request command posts; none for the other commands. -/
def requestEntry : Instr → Option Quad
  | .create h f => some (createEntry h f)
  | .resize h g n => some (resizeEntry h g n)
  | .release h g => some (handleEntry 3 h g)
  | .renew h g given lease => some (renewEntry h g given lease)
  | .setStation h q m b => some (setStationEntry h q m b)
  | .evict h => some (plainEntry 6 h)
  | .retireAll h => some (plainEntry 7 h)
  | .lookupGrant h g => some (handleEntry 8 h g)
  | .lookupSlot h n => some (lookupSlotEntry h n)
  | .lookupStation h => some (plainEntry 10 h)
  | .listSlots h g n p => some (listSlotsEntry h g n p)
  | .census h => some (plainEntry 12 h)
  | .unknownOp h op => some (plainEntry op h)
  | .deviceReset | .resetRelease _ | .highwayStart | .frameStart | .departureComplete _ | .slotEvent _ _ | .keep _
  | .join _ | .ask _ _ | .drop _ _ | .renewWord _ _ _ | .leave _ | .downlinkArbitration | .frameEnd | .taintExpired _
  | .retryCountdownExpired _ | .strayHoldoffExpired _ | .leaseTick | .leaseExpired _ | .placementTake | .commitPoint
  | .rqpost _ | .rspop _ | .runRequest | .stopRequest | .frameLengthWrite _ | .epochLeadWrite _
  | .presenceLimitsWrite _ | .noticeTimingWrite _ | .faultLimitWrite _ | .intrusionCountWrite _ | .intFlagsRead
  | .intFlagsWrite _ | .intEnableWrite _ | .registerWrite _ _ => none

/-- The request command whose four words these are: every word is the posting of some request (R161, R192). -/
def requestOf (e : Quad) : Instr :=
  let h : RequestHead := { resume := e.resume, station := e.w0.extractLsb' 8 6, tag := e.tag }
  match e.op with
  | .create => .create h e.createFields
  | .resize => .resize h e.handle e.newCount
  | .release => .release h e.handle
  | .renew => .renew h e.handle e.leaseGiven e.lease
  | .setStation => .setStation h e.quota e.maxClass e.barred
  | .evict => .evict h
  | .retireAll => .retireAll h
  | .lookupGrant => .lookupGrant h e.handle
  | .lookupSlot => .lookupSlot h (e.w1.extractLsb' 0 10)
  | .lookupStation => .lookupStation h
  | .listSlots => .listSlots h e.handle (e.w2.extractLsb' 0 10) e.selectsPlan
  | .census => .census h
  | .unknown => .unknownOp h e.opCode

/-! ## Register writes (R180): a bit that belongs to no field is ignored -/

/-- The 8-bit value field of EPOCH_LEAD, LEASE_WARN, IDLE_LIMIT, FAULT_LIMIT and TAINT_FRAMES, and QUIET_AFTER. -/
def byte0 (w : Word) : BitVec 8 := w.extractLsb' 0 8
/-- LOST_AFTER in PRESENCE_LIMITS. -/
def byte1 (w : Word) : BitVec 8 := w.extractLsb' 8 8

end Sys2Proof.Machine
end

