-- ==== Sys2Proof/Machine/Table.lean ====
section
/-! DEFINITION. Reading and writing a Table, and its canonical form (assumption log 21). -/

namespace Sys2Proof

variable {α : Type}

/-- The value of key `k`, where an unlisted key has value `d`. -/
def Table.get (d : α) (t : Table α) (k : Nat) : α := (t.cells.lookup k).getD d

/-- The cells with `(k, v)` put before the first greater key. -/
def insertCell (k : Nat) (v : α) : List (Nat × α) → List (Nat × α)
  | [] => [(k, v)]
  | c :: cs => if k < c.1 then (k, v) :: c :: cs else c :: insertCell k v cs

/-- The table with value `v` at key `k`: the cell is dropped where `v` is the default `d`. -/
def Table.put [DecidableEq α] (d : α) (t : Table α) (k : Nat) (v : α) : Table α :=
  let rest := t.cells.filter (fun c => c.1 != k)
  if v = d then ⟨rest⟩ else ⟨insertCell k v rest⟩

/-- The canonical form: keys strictly rising, and no cell that holds the default. -/
def Table.wf [DecidableEq α] (d : α) (t : Table α) : Bool :=
  decide (t.cells.Pairwise (fun a b => a.1 < b.1)) && t.cells.all (fun c => decide (c.2 ≠ d))

/-- Apply `f` to the value of every listed key, dropping the cells that come to hold the default. -/
def Table.mapValues [DecidableEq α] (d : α) (f : Nat → α → α) (t : Table α) : Table α :=
  ⟨(t.cells.map (fun c => (c.1, f c.1 c.2))).filter (fun c => decide (c.2 ≠ d))⟩

end Sys2Proof
end

