-- ==== Sys2Proof/Machine/Ops.lean ====
section
/-! DEFINITION. The named reads and writes of the state, one for each array, and the frame numbers reckoned from it. -/

namespace Sys2Proof.Machine

/-! ## Frame geometry (R1, R3, R4) -/

/-- L, the frame length in slots (R1). -/
def LengthCode.slots : LengthCode → Nat
  | .l256 => 256
  | .l512 => 512
  | .l1024 => 1024

/-- The payload slots 64..L−1 in ascending order (R1). -/
def LengthCode.payload (c : LengthCode) : List Nat := List.range' Config.firstPayload (c.slots - Config.firstPayload)

/-- The classes of slots (R1). -/
inductive SlotClass where
  | sync | uplink | downlink | payload
  deriving DecidableEq, Repr

/-- The class of a slot depends on its number alone (R1). -/
def slotClass (n : Nat) : SlotClass :=
  if n = 0 then .sync else if n ≤ 47 then .uplink else if n ≤ 63 then .downlink else .payload

/-- The current slot while RUNNING, none while STOPPED (R3). -/
def Timer.currentSlot (t : Timer) : Option Nat :=
  match t.timing with
  | .stopped => none
  | .running .startDue => some 0
  | .running (.slot n) => some n
  | .running .arbitrationDue => some 48
  | .running (.endDue _) => some (t.code.slots - 1)

/-- N, the number the next frame start will carry (R4). While the frame start of FN is itself still due, at the edge at
which R7 advanced FN, that number is FN (assumption log 6). -/
def Timer.nextFrame (t : Timer) : BitVec 16 :=
  match t.timing with
  | .stopped => t.fn
  | .running .startDue => t.fn
  | .running (.slot _) => t.fn + 1
  | .running .arbitrationDue => t.fn + 1
  | .running (.endDue _) => t.fn + 1

/-- The payload slots of the frame length held. -/
def State.payload (s : State) : List Nat := s.timer.code.payload

/-! ## Arrays -/

/-- Grant record `i`. -/
def State.grant (s : State) (i : Nat) : Grant := s.grants.get (Grant.freeWith 0) i

/-- Write grant record `i`. -/
def State.putGrant (i : Nat) (g : Grant) (s : State) : State :=
  { s with grants := s.grants.put (Grant.freeWith 0) i g }

/-- Change grant record `i`. -/
def State.updGrant (i : Nat) (f : Grant → Grant) (s : State) : State := s.putGrant i (f (s.grant i))

/-- Station record `a`. -/
def State.station (s : State) (a : Nat) : Station := s.stations.get Station.fresh a

/-- Change station record `a`. -/
def State.updStation (a : Nat) (f : Station → Station) (s : State) : State :=
  { s with stations := s.stations.put Station.fresh a (f (s.station a)) }

/-- The Decoder's record of station `a`. -/
def State.ask (s : State) (a : Nat) : AskRecord := s.asks.get AskRecord.fresh a

/-- Change the Decoder's record of station `a`. -/
def State.updAsk (a : Nat) (f : AskRecord → AskRecord) (s : State) : State :=
  { s with asks := s.asks.put AskRecord.fresh a (f (s.ask a)) }

/-- The Notice Unit's record of station `a`. -/
def State.mailbox (s : State) (a : Nat) : Mailbox := s.mailboxes.get Mailbox.fresh a

/-- Change the Notice Unit's record of station `a`. -/
def State.updMailbox (a : Nat) (f : Mailbox → Mailbox) (s : State) : State :=
  { s with mailboxes := s.mailboxes.put Mailbox.fresh a (f (s.mailbox a)) }

/-- ACTIVE[n] (R33). -/
def State.activeAt (s : State) (n : Nat) : Owner := s.map.active.get none n

/-- PLAN[n] (R33). -/
def State.planAt (s : State) (n : Nat) : Owner := s.map.plan.get none n

/-- taint[n] (R33). -/
def State.taintAt (s : State) (n : Nat) : BitVec 8 := s.map.taint.get 0 n

/-- Change the Slot Map. -/
def State.updMap (f : SlotMap → SlotMap) (s : State) : State := { s with map := f s.map }

/-- Change the Request Port. -/
def State.updPort (f : Port → Port) (s : State) : State := { s with port := f s.port }

/-- Change the configuration registers. -/
def State.updCfg (f : Registers → Registers) (s : State) : State := { s with cfg := f s.cfg }

/-- Change the Frame Timer. -/
def State.updTimer (f : Timer → Timer) (s : State) : State := { s with timer := f s.timer }

/-- Change the Placement Engine. -/
def State.updEngine (f : Engine → Engine) (s : State) : State := { s with engine := f s.engine }

/-- A cause sets its interrupt flag (R184). -/
def State.raise (f : Flag) (s : State) : State := { s with ints := s.ints.raise f }

/-- The payload slots, ascending, whose PLAN entry names grant `i`. -/
def State.planSlots (s : State) (i : Nat) : List Nat := s.payload.filter (fun n => s.planAt n = some i)

/-- The payload slots, ascending, whose ACTIVE entry names grant `i`. -/
def State.activeSlots (s : State) (i : Nat) : List Nat := s.payload.filter (fun n => s.activeAt n = some i)

/-! ## Handles (R21, R22) -/

/-- The handle of record `i`: its generation with the index. -/
def State.handle (s : State) (i : Nat) : Handle :=
  { generation := (s.grant i).generation, index := BitVec.ofNat 8 i }

/-- The handle check (R22). -/
def State.handlePasses (s : State) (h : Handle) : Bool :=
  let g := s.grant h.index.toNat
  h.index.toNat < Config.grantCount && g.state != .free && g.state != .placing && h.generation == g.generation

/-! ## Classes of states -/

/-- PENDING, LIVE or SHIFTING: the states a retire claim acts on (R45). -/
def GrantState.retirable : GrantState → Bool
  | .pending | .live | .shifting => true
  | .free | .placing | .draining => false

/-- LIVE or SHIFTING: the states a lease tick counts and the fault limit retires (R86, R154). -/
def GrantState.counted : GrantState → Bool
  | .live | .shifting => true
  | .free | .placing | .pending | .draining => false

/-- MEMBER or QUIET (R60, R76). -/
def StationState.inMembership : StationState → Bool
  | .member | .quiet => true
  | .absent | .joining | .leaving => false

/-- JOINING, MEMBER or QUIET: notices are queued and presence is counted (R97, R136). -/
def StationState.present : StationState → Bool
  | .joining | .member | .quiet => true
  | .absent | .leaving => false

end Sys2Proof.Machine
end

