-- ==== Sys2Proof/Machine/Notices.lean ====
section
/-! DEFINITION. The Notice Unit's queues: handing a notice, overflow, LEFT replies, emptying and acknowledgement
(08_notices_and_the_downlink.md, R136 to R141). -/

namespace Sys2Proof.Machine

/-- The queue with its tail replaced by SYNC_LOST; a tail that is SYNC_LOST stays (R137). -/
def markSyncLost (q : List Notice) : List Notice := q.dropLast ++ [Notice.syncLost]

/-- A notice joins the tail; in an empty queue it is the head at once, unsent (R135, R136). -/
def Mailbox.append (n : Notice) (m : Mailbox) : Mailbox :=
  { m with queue := m.queue ++ [n], head := if m.queue = [] then .unsent else m.head }

/-- A block hands a notice for station `a` (R136, R137). -/
def State.handNotice (a : Nat) (n : Notice) (s : State) : State :=
  if (s.station a).state.present then
    if Config.noticeLimit ≤ (s.mailbox a).queue.length then
      (s.updMailbox a (fun m => { m with queue := markSyncLost m.queue })).raise .noticeOverrun
    else s.updMailbox a (Mailbox.append n)
  else s

/-- Every notice of the queue is discarded; next sequence and stray hold-off stay (R139). -/
def Mailbox.emptied (m : Mailbox) : Mailbox := { m with queue := [], head := .unsent }

/-- Empty a station's queue (R139). -/
def State.emptyQueue (a : Nat) (s : State) : State := s.updMailbox a Mailbox.emptied

/-- The Decoder offers a LEFT reply for an ABSENT station (R138). -/
def State.offerLeft (a : Nat) (s : State) : State :=
  if (s.mailbox a).queue = [] ∧ (s.mailbox a).holdoff = 0 then
    s.updMailbox a (fun m => { m with queue := [.left], head := { SendState.unsent with sequence := some 0 } })
  else s

/-- The head is removed and the next notice, unsent, becomes the head (R141). -/
def Mailbox.removeHead (m : Mailbox) : Mailbox := { m with queue := m.queue.tail, head := .unsent }

/-- Whether this ack acknowledges the head: it has been sent and carries this sequence (R141). An ack of 0 never does. -/
def Mailbox.acknowledges (m : Mailbox) (ack : BitVec 4) : Bool :=
  m.queue != [] && decide (1 ≤ m.head.sends) && m.head.sequence == some ack && ack != 0

end Sys2Proof.Machine
end

