-- ==== Sys2Proof/Machine/Roster.lean ====
section
/-! DEFINITION. The Station Roster's own transitions up to ABSENT, its counts of records and slots, and the
acknowledgement that admits a station (06_the_station_roster.md, R97, R103, R104, R108, R109, R113 to R115). -/

namespace Sys2Proof.Machine

/-- A transition of a station's state sets STATION (R97). -/
def State.moveStation (a : Nat) (st : StationState) (s : State) : State :=
  (s.updStation a (fun r => { r with state := st })).raise .station

/-- Entry to ABSENT (R109): queue emptied, suspended no, missed 0, STATION set; the rest of the record is kept. -/
def State.enterAbsent (a : Nat) (s : State) : State :=
  ((s.emptyQueue a).updStation a (fun r => { r with suspended := false, missed := 0 })).moveStation a .absent

/-- A LEAVING station whose held records are 0 becomes ABSENT in the same event (R107 step 5, R108). -/
def State.departIfDone (a : Nat) (s : State) : State :=
  if (s.station a).state = .leaving ∧ (s.station a).held = 0 then s.enterAbsent a else s

/-- A failed join: the leave reason is written and the station returns to ABSENT (R104). -/
def State.failJoin (a : Nat) (why : LeaveReason) (s : State) : State :=
  (s.updStation a (fun r => { r with leaveReason := some why })).enterAbsent a

/-- Report: station `a` holds one record more (R30, R115). -/
def State.holdOneMore (a : Nat) (s : State) : State := s.updStation a (fun r => { r with held := r.held + 1 })

/-- Report: the owner holds one record fewer; a departure may end with it (R30, R115). -/
def State.holdOneFewer (owner : Option Nat) (s : State) : State :=
  match owner with
  | none => s
  | some a => (s.updStation a (fun r => { r with held := r.held - 1 })).departIfDone a

/-- Report: the owner's planned slots go up by 1 (R30, R115). -/
def State.planOneMore (owner : Option Nat) (s : State) : State :=
  match owner with
  | none => s
  | some a => s.updStation a (fun r => { r with planned := r.planned + 1 })

/-- Report: the owner's planned slots go down by 1 (R30, R115). -/
def State.planOneFewer (owner : Option Nat) (s : State) : State :=
  match owner with
  | none => s
  | some a => s.updStation a (fun r => { r with planned := r.planned - 1 })

/-- Set or clear a station's suspension (R113, R114). -/
def State.setSuspended (a : Nat) (b : Bool) (s : State) : State := s.updStation a (fun r => { r with suspended := b })

/-- The ack of a JOINING or MEMBER station's word (R141); removal of a JOINED head makes a JOINING station MEMBER (R103). -/
def State.takeAck (a : Nat) (ack : BitVec 4) (s : State) : State :=
  if (s.mailbox a).acknowledges ack then
    let s' := s.updMailbox a Mailbox.removeHead
    if (s.mailbox a).queue.head? = some .joined ∧ (s.station a).state = .joining then s'.moveStation a .member else s'
  else s

end Sys2Proof.Machine
end

