-- ==== Sys2Proof/Machine/Claims.lean ====
section
/-! DEFINITION. The Slot Map and the Grant Table: recording a change, derived states, freeing, the completion of a
claim, effective frames, retire claims, the swap and the seal (02_grant_records.md, R21 to R30;
03_the_slot_map_and_epochs.md, R39 to R50), and the entry to LEAVING, which makes a retire claim (R107). -/

namespace Sys2Proof.Machine

/-! ## Recording a change (R39, R42) -/

/-- Open an epoch if none is OPEN: the next epoch number, S and E reckoned from N and EPOCH_LEAD (R38, R39). -/
def State.openIfNone (s : State) : State :=
  match s.map.openEpoch with
  | some _ => s
  | none =>
    let lead : BitVec 16 := s.cfg.epochLead.setWidth 16
    let number := s.map.epochCounter + 1
    s.updMap (fun m =>
      { m with
        epochCounter := number
        openEpoch := some { number, sealFrame := s.timer.nextFrame + lead / 2, effective := s.timer.nextFrame + lead,
                            changes := .empty } })

/-- Merge the change (n: x→y) into a change list (R42, steps 2 and 3). -/
def mergeChange (l : Table (Option Change)) (n : Nat) (x y : Owner) : Table (Option Change) :=
  match l.get none n with
  | some c => if c.fromOwner = y then l.put none n none else l.put none n (some { c with toOwner := y })
  | none => l.put none n (some { fromOwner := x, toOwner := y })

/-- planCount of an owner, if it is a grant, goes down by 1, and its owner's planned slots with it (R19, R30, R42). -/
def State.planCountDown (o : Owner) (s : State) : State :=
  match o with
  | none => s
  | some i => (s.updGrant i (fun g => { g with planCount := g.planCount - 1 })).planOneFewer (s.grant i).owner

/-- planCount of an owner, if it is a grant, goes up by 1, and its owner's planned slots with it (R19, R30, R42). -/
def State.planCountUp (o : Owner) (s : State) : State :=
  match o with
  | none => s
  | some i => (s.updGrant i (fun g => { g with planCount := g.planCount + 1 })).planOneMore (s.grant i).owner

/-- Steps 2 to 4 of R42 on the Slot Map: the OPEN list carries the change merged, and PLAN[n] becomes y. -/
def SlotMap.recordIn (n : Nat) (x y : Owner) (m : SlotMap) : SlotMap :=
  { m with
    openEpoch := m.openEpoch.map (fun e => { e with changes := mergeChange e.changes n x y })
    plan := m.plan.put none n y }

/-- A claim records the change of slot `n` to owner `y` (R42). -/
def State.recordChange (n : Nat) (y : Owner) (s : State) : State :=
  let x := s.planAt n
  if x = y then s
  else ((s.openIfNone.updMap (SlotMap.recordIn n x y)).planCountDown x).planCountUp y

/-! ## Derived states and freeing (R23 to R26) -/

/-- Whether a change names the grant as from or to. -/
def Change.names (c : Change) (i : Nat) : Bool := c.fromOwner == some i || c.toOwner == some i

/-- Whether an epoch's list names the grant (R43). -/
def Epoch.names (e : Epoch) (i : Nat) : Bool := e.changes.cells.any (fun c => c.2.any (fun ch => ch.names i))

/-- Whether a pending list names the grant. -/
def SlotMap.pendingNames (m : SlotMap) (i : Nat) : Bool :=
  m.openEpoch.any (fun e => e.names i) || m.sealedEpoch.any (fun e => e.names i)

/-- The freeing test, test 2 of R23. -/
def State.freeable (s : State) (i : Nat) : Bool :=
  (s.grant i).planCount == 0 && (s.grant i).activeCount == 0 && !s.map.pendingNames i

/-- The state of a record, by the tests of R23 in order. -/
def State.derived (s : State) (i : Nat) : GrantState :=
  let g := s.grant i
  if g.state = .placing then .placing
  else if s.freeable i then .free
  else if g.planCount = 0 then .draining
  else if g.activeCount = 0 then .pending
  else if s.planSlots i = s.activeSlots i then .live
  else .shifting

/-- Re-derive a record's state (R24). A record that meets the freeing test is left for `freeIfDue`. -/
def State.rederive (i : Nat) (s : State) : State :=
  if (s.grant i).state = .free ∨ s.derived i = .free then s
  else s.updGrant i (fun g => { g with state := s.derived i })

/-- Freeing a record (R26): generation advanced, fields cleared, index to the queue's tail, the Roster told. -/
def State.freeRecord (i : Nat) (s : State) : State :=
  let owner := (s.grant i).owner
  let s := s.updGrant i (fun g => Grant.freeWith (g.generation + 1))
  State.holdOneFewer owner { s with freeQueue := s.freeQueue ++ [i] }

/-- Free a record, neither FREE nor PLACING, that meets the freeing test (R25). -/
def State.freeIfDue (i : Nat) (s : State) : State :=
  if (s.grant i).state ≠ .free ∧ s.derived i = .free then s.freeRecord i else s

/-- The completion of a claim or swap over the records it touched (R44): all are re-derived, then those due are freed,
each in ascending order of index. The counts were reported as they changed (`planCountUp`, `planCountDown`). -/
def State.complete (touched : List Nat) (s : State) : State :=
  let ids := (List.range Config.grantCount).filter (fun i => touched.contains i)
  let s := ids.foldl (fun s i => s.rederive i) s
  ids.foldl (fun s i => s.freeIfDue i) s

/-! ## Effective frames (R43) -/

/-- An effective frame with the number of the epoch whose E it is, none where it is N (R43). -/
structure Effect where
  frame : BitVec 16
  epoch : Option (BitVec 8)
  deriving DecidableEq, Repr

/-- The effective frame for any of these grants: the OPEN epoch's E if its list names one, else the SEALED epoch's, else
N. For one grant this is R43; for the grants of a RETIRE_ALL it is R168. -/
def State.effectFor (ids : List Nat) (s : State) : Effect :=
  match s.map.openEpoch.filter (fun e => ids.any (fun i => e.names i)) with
  | some e => { frame := e.effective, epoch := some e.number }
  | none =>
    match s.map.sealedEpoch.filter (fun e => ids.any (fun i => e.names i)) with
    | some e => { frame := e.effective, epoch := some e.number }
    | none => { frame := s.timer.nextFrame, epoch := none }

/-! ## Retire claims (R45, R46) -/

/-- Step 1 of R45: an off-change for every PLAN slot of the grant, in ascending order. -/
def State.clearPlan (i : Nat) (s : State) : State := (s.planSlots i).foldl (fun s n => s.recordChange n none) s

/-- Step 4 of R45: the REVOKED notice, where the claim carries a reason and the owner is not LEAVING. -/
def State.noticeRevoked (why : Option RevokeReason) (owner : Option Nat) (h : Handle) (i : Nat) (s : State) : State :=
  match why, owner with
  | some reason, some a =>
    if (s.station a).state = .leaving then s else s.handNotice a (.revoked h reason (s.effectFor [i]).frame)
  | _, _ => s

/-- A retire claim on the grants named (R45, R46). Those not PENDING, LIVE or SHIFTING are left alone. The result is the
state and the indices retired, ascending. -/
def State.retire (named : List Nat) (why : Option RevokeReason) (s : State) : State × List Nat :=
  let ids := (List.range Config.grantCount).filter (fun i => named.contains i && (s.grant i).state.retirable)
  let marks := ids.map (fun i => (i, (s.grant i).owner, s.handle i))
  let s := (ids.foldl (fun s i => s.clearPlan i) s).complete ids
  (marks.foldl (fun s m => s.noticeRevoked why m.2.1 m.2.2 m.1) s, ids)

/-! ## The frame start (R49, R50) -/

/-- activeCount of an owner, if it is a grant, changes (R19, R49 step 1). -/
def State.activeCountUp (o : Owner) (s : State) : State :=
  match o with
  | none => s
  | some i => s.updGrant i (fun g => { g with activeCount := g.activeCount + 1 })

/-- activeCount of an owner, if it is a grant, goes down by 1 (R19, R49 step 1). -/
def State.activeCountDown (o : Owner) (s : State) : State :=
  match o with
  | none => s
  | some i => s.updGrant i (fun g => { g with activeCount := g.activeCount - 1 })

/-- The changes of a list with their slots, in ascending slot order. -/
def changesOf (l : Table (Option Change)) : List (Nat × Change) := l.cells.filterMap (fun c => c.2.map (fun ch => (c.1, ch)))

/-- The grants a list names. -/
def namedIn (l : Table (Option Change)) : List Nat :=
  (changesOf l).flatMap (fun c => c.2.fromOwner.toList ++ c.2.toOwner.toList)

/-- Steps 1 and 2 of R49 on the Slot Map: ACTIVE takes every change of the list, and the epoch is removed. -/
def SlotMap.swapIn (e : Epoch) (m : SlotMap) : SlotMap :=
  { m with
    active := (changesOf e.changes).foldl (fun t c => t.put none c.1 c.2.toOwner) m.active
    sealedEpoch := none }

/-- The swap of the SEALED epoch (R49): ACTIVE and activeCount follow every change, then the completion, then EPOCH. -/
def State.swap (e : Epoch) (s : State) : State :=
  let s := (changesOf e.changes).foldl
    (fun s c => (s.activeCountDown c.2.fromOwner).activeCountUp c.2.toOwner) (s.updMap (SlotMap.swapIn e))
  (s.complete (namedIn e.changes)).raise .epoch

/-- The seal of the OPEN epoch (R50). -/
def State.sealOpen (s : State) : State := s.updMap (fun m => { m with sealedEpoch := m.openEpoch, openEpoch := none })

/-- What the Slot Map does at the frame start of frame FN: a swap first, a seal second (R49, R50). An OPEN epoch does
not seal while a SEALED one is pending, as R38 allows one of each (assumption log 15). -/
def State.epochsAtStart (s : State) : State :=
  let s := match s.map.sealedEpoch with
    | some e => if e.effective = s.timer.fn then s.swap e else s
    | none => s
  match s.map.openEpoch with
  | some e => if e.sealFrame = s.timer.fn ∧ s.map.sealedEpoch = none then s.sealOpen else s
  | none => s

/-! ## Entry to LEAVING (R107) -/

/-- The retirable records a station owns. -/
def State.retirableOf (a : Nat) (s : State) : List Nat :=
  (List.range Config.grantCount).filter (fun i => (s.grant i).owner = some a && (s.grant i).state.retirable)

/-- Step 3 of R107: a waiting ask leaves the Uplink Ask Queue; an ask in flight stays. -/
def State.dropWaitingAsk (a : Nat) (s : State) : State :=
  match (s.ask a).status with
  | .waiting _ =>
    let s := s.updAsk a (fun k => { k with status := .none })
    { s with askQueue := s.askQueue.filter (fun q => q.station != a) }
  | .none => s
  | .inFlight _ => s

/-- Entry to LEAVING (R107), its five steps in order. -/
def State.enterLeaving (a : Nat) (why : LeaveReason) (s : State) : State :=
  let s := (s.updStation a (fun r => { r with leaveReason := some why })).moveStation a .leaving
  let s := (s.emptyQueue a).dropWaitingAsk a
  let s := (s.retire (s.retirableOf a) none).1
  s.departIfDone a

/-- What EVICT, and barred going to yes, do to a station's state (R104, R110, R111). -/
def State.evictStation (a : Nat) (s : State) : State :=
  match (s.station a).state with
  | .member => s.enterLeaving a .evicted
  | .quiet => s.enterLeaving a .evicted
  | .joining => s.failJoin a .evicted
  | .absent => s
  | .leaving => s

end Sys2Proof.Machine
end

