-- ==== Sys2Proof/Machine/Leases.lean ====
section
/-! DEFINITION. The Lease Unit: loading, renewal and the lease tick (05_leases_and_idle_reclaim.md, R84 to R94). -/

namespace Sys2Proof.Machine

/-! ## Loading (R92, R93) -/

/-- The reload a lease code stands for: 0 is perpetual, k is the value LEASE_CODEk holds (R92). -/
def Registers.leaseFor (c : Registers) (code : BitVec 4) : BitVec 16 :=
  ((0 : BitVec 16) :: c.leaseCodes.toList).getD code.toNat 0

/-- The lease of a new grant, loaded in its commit claim (R80 step 4, R92). -/
def Grant.withLease (reload : BitVec 16) (g : Grant) : Grant :=
  { g with leaseReload := reload, leaseRemaining := reload, leaseWarned := false, idleTicks := 0 }

/-- A renewal's load: a new reload where one is carried, else the reload held; idle state is kept (R93). -/
def Grant.renewed (reload : Option (BitVec 16)) (g : Grant) : Grant :=
  { g with leaseReload := reload.getD g.leaseReload, leaseRemaining := reload.getD g.leaseReload, leaseWarned := false }

/-- A notice for the owner of record `i`. -/
def State.noticeOwner (i : Nat) (n : Notice) (s : State) : State :=
  match (s.grant i).owner with
  | none => s
  | some a => s.handNotice a n

/-- A renewal of a grant that is not DRAINING: the load, and RENEWED to its owner (R93, R94). -/
def State.renewGrant (i : Nat) (reload : Option (BitVec 16)) (s : State) : State :=
  let s := s.updGrant i (Grant.renewed reload)
  s.noticeOwner i (.renewed (s.handle i) (s.grant i).leaseRemaining)

/-! ## The lease tick (R86 to R91) -/

/-- The decrement of R87; a perpetual grant keeps 0. -/
def Grant.countedDown (g : Grant) : Grant :=
  if g.leaseReload = 0 then g else { g with leaseRemaining := decNonzero g.leaseRemaining }

/-- Whether the decrement that gave this remaining draws LEASE_LOW (R88). -/
def Grant.warnDue (warn : BitVec 8) (g : Grant) : Bool :=
  g.leaseReload != 0 && warn != 0 && g.leaseRemaining == warn.setWidth 16 && !g.leaseWarned

/-- Steps R87 and R88: the countdown and the warning. -/
def State.tickLease (i : Nat) (s : State) : State :=
  let s := s.updGrant i Grant.countedDown
  if (s.grant i).warnDue s.cfg.leaseWarn then
    (s.noticeOwner i (.leaseLow (s.handle i) (s.grant i).leaseRemaining)).updGrant i
      (fun g => { g with leaseWarned := true })
  else s

/-- The update of R90. -/
def Grant.idled (g : Grant) : Grant :=
  { g with idleTicks := if g.usedThisTick then 0 else satInc g.idleTicks, usedThisTick := false }

/-- Steps R90 and R91: the idle count and the idle reclaim. -/
def State.tickIdle (i : Nat) (s : State) : State :=
  let s := s.updGrant i Grant.idled
  if s.cfg.idleLimit ≠ 0 ∧ s.cfg.idleLimit ≤ (s.grant i).idleTicks then (s.retire [i] (some .idle)).1 else s

/-- The steps of one record at a lease tick (R86 to R91). -/
def State.tickRecord (i : Nat) (s : State) : State :=
  if (s.grant i).state.counted then
    let s := s.tickLease i
    if (s.grant i).leaseReload ≠ 0 ∧ (s.grant i).leaseRemaining = 0 then (s.retire [i] (some .expired)).1
    else s.tickIdle i
  else s

/-- The lease tick, one event: every record in ascending order of index (R85). -/
def State.tick (s : State) : State := (List.range Config.grantCount).foldl (fun s i => s.tickRecord i) s

/-- A lease tick falls at the frame end of every frame whose number is 255 modulo 256 (R85). -/
def Timer.tickFrame (t : Timer) : Bool := t.fn.toNat % 256 == 255

/-! ## The station's DROP and RENEW words (R128, R129) -/

/-- Whether the handle passes the handle check and names a grant of station `a` (R128, R129). -/
def State.owns (a : Nat) (h : Handle) (s : State) : Bool :=
  s.handlePasses h && (s.grant h.index.toNat).owner == some a

/-- A MEMBER station's RENEW, after its ack (R93, R94, R129). -/
def State.renewFor (a : Nat) (h : Handle) (code : BitVec 4) (s : State) : State :=
  if s.owns a h then
    if (s.grant h.index.toNat).state = .draining then s.handNotice a (.refusedHandle .retiring h)
    else s.renewGrant h.index.toNat (if code = 0 then none else some (s.cfg.leaseFor code))
  else s.handNotice a (.refusedHandle .staleHandle h)

/-- A MEMBER station's DROP, after its ack (R128). A DRAINING grant is left alone by the retire claim (R45). -/
def State.dropFor (a : Nat) (h : Handle) (s : State) : State :=
  if s.owns a h then (s.retire [h.index.toNat] (some .dropped)).1
  else s.handNotice a (.refusedHandle .staleHandle h)

end Sys2Proof.Machine
end

