-- ==== Sys2Proof/WellFormed.lean ====
section
/-! DEFINITION. Which commands name something the part has: a station, a payload slot, a record, an unknown op,
a register with no row of its own. An ill-formed command still has a meaning (assumption log 18). -/

namespace Sys2Proof

/-- A station address, 1..47 (R96). -/
def isStation (a : Nat) : Bool := 1 ≤ a && a ≤ Config.stationCount

/-- The word addresses A[7:2] whose write is a row of its own in spec/opcode_table.json: CONTROL, FRAME_LENGTH,
EPOCH_LEAD, PRESENCE_LIMITS, NOTICE_TIMING, FAULT_LIMIT, INT_FLAGS, INT_ENABLE, INTRUSION_COUNT, RQPOST, RSPOP (R179). -/
def ownRowAddresses : List (BitVec 6) :=
  [0x01, 0x05, 0x06, 0x07, 0x08, 0x0B, 0x0E, 0x0F, 0x10, 0x24, 0x2A]

/-- The checks on a command's operands. -/
def Instr.wellFormed : Instr → Bool
  | .departureComplete a => isStation a.toNat
  | .retryCountdownExpired a => isStation a.toNat
  | .strayHoldoffExpired a => isStation a.toNat
  | .taintExpired s => Config.firstPayload ≤ s.toNat
  | .leaseExpired i => i.toNat < Config.grantCount
  | .unknownOp _ op => op = 0 || 13 ≤ op.toNat
  | .registerWrite a _ => !ownRowAddresses.contains a
  | .deviceReset | .resetRelease _ | .highwayStart | .frameStart | .slotEvent _ _ | .keep _ | .join _ | .ask _ _
  | .drop _ _ | .renewWord _ _ _ | .leave _ | .downlinkArbitration | .frameEnd | .leaseTick | .placementTake
  | .commitPoint | .create _ _ | .resize _ _ _ | .release _ _ | .renew _ _ _ _ | .setStation _ _ _ _ | .evict _
  | .retireAll _ | .lookupGrant _ _ | .lookupSlot _ _ | .lookupStation _ | .listSlots _ _ _ _ | .census _ | .rqpost _
  | .rspop _ | .runRequest | .stopRequest | .frameLengthWrite _ | .epochLeadWrite _ | .presenceLimitsWrite _
  | .noticeTimingWrite _ | .faultLimitWrite _ | .intrusionCountWrite _ | .intFlagsRead | .intFlagsWrite _
  | .intEnableWrite _ => true

end Sys2Proof
end

