-- ==== Sys2Proof/Machine/Requests.lean ====
section
/-! DEFINITION. The Request Port: posting, taking, the ops it performs itself, lookups and results
(10_requests_and_results.md, R161 to R175; result words R193). -/

namespace Sys2Proof.Machine

/-- What an op answers: its status, and words 1 to 3 of the result where the status is OK. -/
structure Answer where
  status : Status
  words : Word × Word × Word
  deriving DecidableEq, Repr

/-- An answer that is not OK carries zeros (R165). -/
def Answer.refused (st : Status) : Answer := { status := st, words := (0, 0, 0) }

/-- An OK answer. -/
def Answer.ok (w1 w2 w3 : Word) : Answer := { status := .ok, words := (w1, w2, w3) }

/-- An OK answer of a handle with an effective frame (R193: CREATE, RESIZE, RELEASE). -/
def Answer.placed (h : Handle) (e : Effect) : Answer := .ok (handleWord h) (e.frame.setWidth 32) (epochField e.epoch)

/-- An OK answer of a station's state (R170, R193: SET_STATION, EVICT). -/
def Answer.station (st : StationState) : Answer := .ok (st.code.setWidth 32) 0 0

/-! ## Results (R163, R165) -/

/-- The result entry of request `e`, with `inUse` in bits 15:8 of word 0 (R193). -/
def resultEntry (e : Quad) (inUse : BitVec 8) (r : Answer) : Quad :=
  ⟨resultWord0 e.tag inUse r.status e.opCode, r.words.1, r.words.2.1, r.words.2.2⟩

/-- A result joins the tail of the result queue and sets RESULT (R163). -/
def State.postResult (q : Quad) (s : State) : State :=
  (s.updPort (fun p => { p with results := p.results ++ [q] })).raise .result

/-! ## Ops that retire or renew (R167 to R169) -/

/-- RELEASE (R167). -/
def State.performRelease (h : Handle) (s : State) : State × Answer :=
  if s.handlePasses h then
    if (s.grant h.index.toNat).state = .draining then (s, .refused .retiring)
    else
      let s := (s.retire [h.index.toNat] (some .released)).1
      (s, .placed h (s.effectFor [h.index.toNat]))
  else (s, .refused .staleHandle)

/-- The records RETIRE_ALL names for a station field of 0..47 (R168). -/
def State.namedByRetireAll (a : Nat) (s : State) : List Nat :=
  (List.range Config.grantCount).filter (fun i =>
    (s.grant i).state.retirable && (a == 0 || (s.grant i).owner == some a))

/-- RETIRE_ALL (R168). -/
def State.performRetireAll (a : Nat) (s : State) : State × Answer :=
  if a = 0 ∨ isStation a then
    let r := s.retire (s.namedByRetireAll a) (some .released)
    let e := r.1.effectFor r.2
    (r.1, .ok (BitVec.ofNat 32 r.2.length) (e.frame.setWidth 32) (epochField e.epoch))
  else (s, .refused .badRequest)

/-- RENEW at the Request Port (R169). -/
def State.performRenew (h : Handle) (lease : Option (BitVec 16)) (s : State) : State × Answer :=
  if s.handlePasses h then
    if (s.grant h.index.toNat).state = .draining then (s, .refused .retiring)
    else
      let s := s.renewGrant h.index.toNat lease
      (s, .ok (handleWord h) ((s.grant h.index.toNat).leaseRemaining.setWidth 32) 0)
  else (s, .refused .staleHandle)

/-! ## SET_STATION and EVICT (R110, R111, R170) -/

/-- SET_STATION (R111, R170). -/
def State.performSetStation (a : Nat) (quota : BitVec 10) (maxClass : BitVec 2) (barred : Bool) (s : State) :
    State × Answer :=
  if isStation a ∧ quota.toNat ≤ Config.quotaLimit then
    let newlyBarred := barred && !(s.station a).barred
    let s := s.updStation a (fun r => { r with quota, maxClass, barred })
    let s := if newlyBarred then s.evictStation a else s
    (s, .station (s.station a).state)
  else (s, .refused .badRequest)

/-- EVICT (R110, R170). -/
def State.performEvict (a : Nat) (s : State) : State × Answer :=
  if isStation a then
    if (s.station a).state.present then
      let s := s.evictStation a
      (s, .station (s.station a).state)
    else (s, .refused .notMember)
  else (s, .refused .badRequest)

/-! ## Lookups (R171 to R175) -/

/-- LOOKUP_GRANT (R171). -/
def State.lookupGrant (h : Handle) (s : State) : Answer :=
  if s.handlePasses h then
    let w := lookupGrantWords (s.grant h.index.toNat)
    .ok w.1 w.2.1 w.2.2
  else .refused .staleHandle

/-- LOOKUP_SLOT (R172). -/
def State.lookupSlot (n : Nat) (s : State) : Answer :=
  if Config.firstPayload ≤ n ∧ n < s.timer.code.slots then
    .ok (0#8 ++ s.taintAt n ++ 0#6 ++ BitVec.ofNat 10 n) (ownerField ((s.activeAt n).map s.handle))
      (ownerField ((s.planAt n).map s.handle))
  else .refused .badRequest

/-- LOOKUP_STATION (R173). -/
def State.lookupStation (a : Nat) (s : State) : Answer :=
  if isStation a then
    let w := lookupStationWords (s.station a) (s.ask a) (s.mailbox a).queue.length
    .ok w.1 w.2.1 w.2.2
  else .refused .badRequest

/-- LIST_SLOTS (R174). -/
def State.listSlots (h : Handle) (start : Nat) (plan : Bool) (s : State) : Answer :=
  if s.handlePasses h then
    let named := if plan then s.planSlots h.index.toNat else s.activeSlots h.index.toNat
    let w := listSlotsWords plan (named.filter (fun n => decide (start ≤ n)))
    .ok w.1 w.2.1 w.2.2
  else .refused .staleHandle

/-- The slots a free pass may choose (R175). -/
def State.freeSlots (s : State) : Nat := s.payload.countP (fun n => s.planAt n == none && s.taintAt n == 0)

/-- The payload slots whose taint is nonzero (R175). -/
def State.taintedSlots (s : State) : Nat := s.payload.countP (fun n => s.taintAt n != 0)

/-- The records that are not FREE (R175). -/
def State.recordsInUse (s : State) : Nat := (List.range Config.grantCount).countP (fun i => (s.grant i).state != .free)

/-- The stations that are MEMBER or QUIET (R175). -/
def State.memberCount (s : State) : Nat :=
  (List.range' 1 Config.stationCount).countP (fun a => (s.station a).state.inMembership)

/-- The number of changes in an epoch's list (R175). -/
def Epoch.changeCount (e : Epoch) : Nat := (changesOf e.changes).length

/-- Words 1 to 3 of a CENSUS result (R175, R193). -/
def State.census (s : State) : Answer :=
  let sealedOne := s.map.sealedEpoch
  let openOne := s.map.openEpoch
  .ok
    (BitVec.ofBool openOne.isSome ++ BitVec.ofBool sealedOne.isSome
      ++ BitVec.ofNat 10 (sealedOne.elim 0 Epoch.changeCount) ++ BitVec.ofNat 10 s.taintedSlots
      ++ BitVec.ofNat 10 s.freeSlots)
    (openOne.elim 0 Epoch.number ++ sealedOne.elim 0 Epoch.number ++ sealedOne.elim 0 Epoch.effective)
    (BitVec.ofNat 6 s.memberCount ++ BitVec.ofNat 10 (openOne.elim 0 Epoch.changeCount)
      ++ openOne.elim 0 Epoch.effective)

/-! ## The port's take (R164, R165) -/

/-- The result of an op performed at the take is posted in the same event (R164). -/
def State.answer (e : Quad) (r : State × Answer) : State := r.1.postResult (resultEntry e 0 r.2)

/-- A CREATE or RESIZE is handed to the Placement Engine; the port becomes IN_PROGRESS (R166). -/
def State.handOn (e : Quad) (s : State) : State := s.updPort (fun p => { p with inProgress := some e })

/-- The suspension clearing at a take (R165 step 1). -/
def State.clearSuspension (e : Quad) (s : State) : State :=
  if e.resume && isStation e.station then s.setSuspended e.station false else s

/-- A request, once its entry has left the queue, is dealt with by its op (R164, R165). -/
def State.perform (e : Quad) (s : State) : State :=
  match e.op with
  | .create => s.handOn e
  | .resize => s.handOn e
  | .release => State.answer e (s.performRelease e.handle)
  | .renew => State.answer e (s.performRenew e.handle (if e.leaseGiven then some e.lease else none))
  | .setStation => State.answer e (s.performSetStation e.station e.quota e.maxClass e.barred)
  | .evict => State.answer e (s.performEvict e.station)
  | .retireAll => State.answer e (s.performRetireAll e.station)
  | .lookupGrant => State.answer e (s, s.lookupGrant e.handle)
  | .lookupSlot => State.answer e (s, s.lookupSlot e.slot)
  | .lookupStation => State.answer e (s, s.lookupStation e.station)
  | .listSlots => State.answer e (s, s.listSlots e.handle e.startSlot e.selectsPlan)
  | .census => s.postResult (resultEntry e (BitVec.ofNat 8 s.recordsInUse) s.census)
  | .unknown => State.answer e (s, .refused .badRequest)

/-- The port's take of entry `e`: it leaves the request queue and is served (R164). -/
def State.takeEntry (e : Quad) (rest : List Quad) (s : State) : State :=
  ((s.updPort (fun p => { p with requests := rest })).clearSuspension e).perform e

/-- Whether the port can take a head: it is IDLE and the result queue has room (R164). -/
def Port.canTake (p : Port) : Bool := p.inProgress == none && decide (p.results.length < Config.resultLimit)

/-- The port takes heads, at most `fuel` of them, while the conditions of R164 hold. -/
def State.serve : Nat → State → State
  | 0, s => s
  | fuel + 1, s =>
    match s.port.requests with
    | [] => s
    | e :: rest => if s.port.canTake then State.serve fuel (s.takeEntry e rest) else s

/-- The port takes every head it can, in the same event (R164). -/
def State.servePort (s : State) : State := s.serve s.port.requests.length

/-- The engine hands back the result of the request in progress; the port posts it, is IDLE, and takes the next head
in the same event (R163, R164, R166). -/
def State.handBack (e : Quad) (r : Answer) (s : State) : State :=
  ((s.updPort (fun p => { p with inProgress := none, results := p.results ++ [resultEntry e 0 r] })).raise
    .result).servePort

/-! ## Posting and popping (R161, R163) -/

/-- A post of the staging words (R161), with the take that may follow in the same event (R164). -/
def State.post (s : State) : State :=
  if s.port.requests.length < Config.requestLimit then
    (s.updPort (fun p => { p with requests := p.requests ++ [p.staging] })).servePort
  else s.raise .reqOverrun

/-- A write to RSPOP: the head result is removed, and the port takes a head where there is room now (R163, R164). -/
def State.popResult (s : State) : State := (s.updPort (fun p => { p with results := p.results.tail })).servePort

/-- The four staging writes and the post of one request (R161). -/
def State.request (e : Quad) (s : State) : State := (s.updPort (fun p => { p with staging := e })).post

end Sys2Proof.Machine
end

