-- ==== Sys2Proof/Machine/Search.lean ====
section
/-! DEFINITION. The search of PLAN: the three patterns, the resize procedures and the preemptive pass
(04_placement.md, R64 to R74). A search is told which slots are available and answers the chosen set, ascending. -/

namespace Sys2Proof.Machine

/-! ## The patterns (R65 to R67) -/

/-- The n lowest-numbered available slots (R65). -/
def anySearch (c : LengthCode) (avail : Nat → Bool) (n : Nat) : Option (List Nat) :=
  let l := (c.payload.filter avail).take n
  if l.length = n then some l else none

/-- The run of n available slots with the lowest start, 64 to L−n (R66). -/
def blockSearch (c : LengthCode) (avail : Nat → Bool) (n : Nat) : Option (List Nat) :=
  let starts := List.range' Config.firstPayload (c.slots + 1 - n - Config.firstPayload)
  (starts.find? (fun b => (List.range' b n).all avail)).map (fun b => List.range' b n)

/-- The lowest available slot of each of n windows of width floor(P/n) (R67). -/
def evenSearch (c : LengthCode) (avail : Nat → Bool) (n : Nat) : Option (List Nat) :=
  let w := (c.slots - Config.firstPayload) / n
  let l := (List.range n).filterMap (fun i => (List.range' (Config.firstPayload + i * w) w).find? avail)
  if l.length = n then some l else none

/-- A search for n slots in a pattern (R64 to R67). -/
def freshSearch (p : Pattern) (c : LengthCode) (avail : Nat → Bool) (n : Nat) : Option (List Nat) :=
  match p with
  | .any => anySearch c avail n
  | .block => blockSearch c avail n
  | .even => evenSearch c avail n

/-! ## Resizing (R68 to R71). `own` is the grant's PLAN set O, ascending; n differs from its length k. -/

/-- An ANY grant's resize (R69). -/
def resizeAny (c : LengthCode) (avail : Nat → Bool) (own : List Nat) (n : Nat) : Option (List Nat) :=
  if n ≤ own.length then some (own.take n)
  else
    let added := (c.payload.filter (fun x => avail x && !own.contains x)).take (n - own.length)
    if added.length = n - own.length then some (c.payload.filter (fun x => own.contains x || added.contains x)) else none

/-- A BLOCK grant's resize (R70): shrink to the lowest slots, else upward, else downward, else a fresh run. -/
def resizeBlock (c : LengthCode) (avail : Nat → Bool) (own : List Nat) (n : Nat) : Option (List Nat) :=
  let k := own.length
  let b := own.headD Config.firstPayload
  let d := n - k
  if n ≤ k then some (own.take n)
  else if b + n ≤ c.slots ∧ (List.range' (b + k) d).all avail then some (List.range' b n)
  else if Config.firstPayload + d ≤ b ∧ (List.range' (b - d) d).all avail then some (List.range' (b - d) n)
  else blockSearch c avail n

/-- A resize's search (R68 to R71). -/
def resizeSearch (p : Pattern) (c : LengthCode) (avail : Nat → Bool) (own : List Nat) (n : Nat) : Option (List Nat) :=
  if n = own.length then some own
  else
    match p with
    | .any => resizeAny c avail own n
    | .block => resizeBlock c avail own n
    | .even => evenSearch c avail n

/-! ## Availability and the preemptive pass (R64, R72 to R74) -/

/-- Whether slot `n` is available to the search for record `self` with these candidates added (R64). -/
def State.available (self : Nat) (added : List Nat) (s : State) (n : Nat) : Bool :=
  match s.planAt n with
  | none => s.taintAt n == 0
  | some i => i == self || (added.contains i && s.taintAt n == 0)

/-- Whether record `i` is a candidate for a placement of record `self`, of class `c`, for station `a` (R72). -/
def State.isCandidate (self a : Nat) (c : BitVec 2) (s : State) (i : Nat) : Bool :=
  let g := s.grant i
  g.preemptible && decide (g.cls < c) && decide (0 < g.planCount) && g.state.retirable && g.owner != some a && i != self

/-- Candidate `i` comes before `j`: class ascending, commit sequence descending, index ascending (R73). -/
def State.comesBefore (s : State) (i j : Nat) : Bool :=
  let g := s.grant i
  let h := s.grant j
  decide (g.cls < h.cls) || (g.cls == h.cls && (decide (h.commitSeq < g.commitSeq)
    || (g.commitSeq == h.commitSeq && decide (i ≤ j))))

/-- Put `i` into a list of candidates at its place. -/
def State.insertCandidate (s : State) (i : Nat) : List Nat → List Nat
  | [] => [i]
  | j :: l => if s.comesBefore i j then i :: j :: l else j :: s.insertCandidate i l

/-- The candidates in the order of R73. -/
def State.candidates (self a : Nat) (c : BitVec 2) (s : State) : List Nat :=
  ((List.range Config.grantCount).filter (s.isCandidate self a c)).foldr s.insertCandidate []

/-- The victims: the added candidates that own a slot of T in PLAN, in the order added (R74). -/
def State.victims (added t : List Nat) (s : State) : List Handle :=
  (added.filter (fun i => t.any (fun n => s.planAt n == some i))).map s.handle

/-- The preemptive pass: candidates are added one at a time, at most four, until the search succeeds (R73, R74). -/
def State.preemptivePass (self : Nat) (order : List Nat) (find : (Nat → Bool) → Option (List Nat)) (s : State) : Found :=
  let order := order.take Config.candidateLimit
  let tries := (List.range order.length).map (fun k => order.take (k + 1))
  (tries.findSome? (fun added => (find (s.available self added)).map (fun t => Found.chosen t (s.victims added t)))).getD
    .noRoom

/-- The outcome of the search made at the take (R63, R64, R72). -/
def State.search (self a : Nat) (c : BitVec 2) (find : (Nat → Bool) → Option (List Nat)) (s : State) : Found :=
  match find (s.available self []) with
  | some t => .chosen t []
  | none =>
    if s.cfg.preempt && c != 0 then s.preemptivePass self (s.candidates self a c) find else .noRoom

end Sys2Proof.Machine
end

