-- ==== Sys2Proof/Machine/Engine.lean ====
section
/-! DEFINITION. The Placement Engine: the arbiter, the checks at the take, the reservation, and the commit point
(04_placement.md, R57 to R63, R76 to R82; 02_grant_records.md, R18, R20, R28, R29; 03_the_slot_map_and_epochs.md, R47). -/

namespace Sys2Proof.Machine

/-! ## Work and the arbiter (R58, R59) -/

/-- The kind of work an IDLE engine takes; none where no work waits (R59). -/
def State.workChosen (s : State) : Option WorkKind :=
  if s.port.inProgress.isSome then
    if s.askQueue.isEmpty || s.engine.lastKind == .uplink then some .localBus else some .uplink
  else if s.askQueue.isEmpty then none else some .uplink

/-- Whether the engine is IDLE and work waits, so that a take is due at once (R59). -/
def State.takeDue (s : State) : Bool := s.engine.context.isNone && s.workChosen.isSome

/-- The engine becomes BUSY with this placement (R63). -/
def State.begin (c : Context) (s : State) : State := s.updEngine (fun e => { e with context := some c })

/-- A take sets the last kind taken (R59). -/
def State.noteKind (k : WorkKind) (s : State) : State := s.updEngine (fun e => { e with lastKind := k })

/-! ## The checks (R60, R61) -/

/-- The status of the first check of a list that fails, none where all hold (R60). -/
def firstFailure (checks : List (Bool × Status)) : Option Status := (checks.find? (fun c => !c.1)).map (fun c => c.2)

/-- Check 5: the count is 1..64. -/
def countInRange (n : Nat) : Bool := decide (1 ≤ n) && decide (n ≤ 64)

/-- Checks 2 to 8 of a CREATE, in order (R60). -/
def State.createChecks (a n : Nat) (pattern : Option Pattern) (s : State) : List (Bool × Status) :=
  let r := s.station a
  [(isStation a && r.state.inMembership, .notMember),
   (!r.suspended, .suspended),
   (countInRange n && pattern.isSome, .badRequest),
   (decide (r.held < Config.grantLimit), .grantLimit),
   (decide (r.planned + n ≤ r.quota.toNat), .quota),
   (!s.freeQueue.isEmpty, .tableFull)]

/-- Checks 2 to 8 of an ASK, in order (R60). -/
def State.askChecks (a n : Nat) (pattern : Option Pattern) (cls : BitVec 2) (s : State) : List (Bool × Status) :=
  let r := s.station a
  [(r.state == .member, .notMember),
   (!r.suspended, .suspended),
   (decide (cls ≤ r.maxClass), .cls),
   (countInRange n && pattern.isSome, .badRequest),
   (decide (r.held < Config.grantLimit), .grantLimit),
   (decide (r.planned + n ≤ r.quota.toNat), .quota),
   (!s.freeQueue.isEmpty, .tableFull)]

/-- Checks 1a to 7 of a RESIZE, in order; the station is the grant's owner (R60, R61). -/
def State.resizeChecks (h : Handle) (n : Nat) (s : State) : List (Bool × Status) :=
  let g := s.grant h.index.toNat
  let r := s.station (g.owner.getD 0)
  [(s.handlePasses h, .staleHandle),
   (g.state != .draining, .retiring),
   (g.owner.isSome && r.state.inMembership, .notMember),
   (!r.suspended, .suspended),
   (countInRange n, .badRequest),
   (decide (n ≤ g.planCount) || decide (r.planned + (n - g.planCount) ≤ r.quota.toNat), .quota)]

/-! ## The reservation (R18, R28, R29) -/

/-- Reserve the head `i` of the Free Record Queue and write it as `g`, PLACING, keeping its generation; the Roster is
told (R18, R28, R30). -/
def State.reserve (i : Nat) (g : Grant) (a : Nat) (s : State) : State :=
  State.holdOneMore a
    { (s.updGrant i (fun old => { g with generation := old.generation, state := .placing, owner := some a })) with
      freeQueue := s.freeQueue.tail }

/-- Return a PLACING record to the head of the Free Record Queue, generation unchanged; the Roster is told (R29). -/
def State.returnRecord (i : Nat) (s : State) : State :=
  let owner := (s.grant i).owner
  let s := s.updGrant i (fun g => Grant.freeWith g.generation)
  State.holdOneFewer owner { s with freeQueue := i :: s.freeQueue }

/-- What a reservation writes from a CREATE (R18). -/
def grantOfCreate (f : CreateFields) (p : Pattern) (tag : BitVec 16) : Grant :=
  { Grant.freeWith 0 with
    origin := .localBus, cls := f.cls, preemptible := f.preemptible, pattern := p, requested := f.count.toNat
    stream := f.stream, tag }

/-- The number of slots an ASK asks for (R119). -/
def askCount (f : AskFields) : Nat := f.countLessOne.toNat + 1

/-- What a reservation writes from an ASK (R18). -/
def grantOfAsk (f : AskFields) (p : Pattern) : Grant :=
  { Grant.freeWith 0 with
    origin := .uplink, cls := f.cls, preemptible := f.preemptible, pattern := p, requested := askCount f
    stream := f.stream }

/-! ## The take (R60 to R63) -/

/-- Reserve the head record for a new grant, search, and become BUSY (R63). `kind` is told the index reserved. -/
def State.placeNew (kind : Nat → PlacementKind) (g : Grant) (a : Nat) (s : State) : State :=
  let i := s.freeQueue.headD 0
  let s := s.reserve i g a
  s.begin
    { kind := kind i, station := a, newCount := g.requested
      outcome := s.search i a g.cls (fun avail => freshSearch g.pattern s.timer.code avail g.requested) }

/-- The take of a CREATE (R60, R62, R63). -/
def State.takeCreate (e : Quad) (s : State) : State :=
  let f := e.createFields
  let p := Pattern.ofBits f.pattern
  match firstFailure (s.createChecks e.station f.count.toNat p) with
  | some st => s.handBack e (.refused st)
  | none => s.placeNew (fun i => .create i f.lease) (grantOfCreate f (p.getD .any) e.tag) e.station

/-- The take of a RESIZE (R60, R62, R63, R68). -/
def State.takeResize (e : Quad) (s : State) : State :=
  let h := e.handle
  let n := e.newCount.toNat
  let i := h.index.toNat
  let g := s.grant i
  match firstFailure (s.resizeChecks h n) with
  | some st => s.handBack e (.refused st)
  | none =>
    s.begin
      { kind := .resize h, station := g.owner.getD 0, newCount := n
        outcome := s.search i (g.owner.getD 0) g.cls
          (fun avail => resizeSearch g.pattern s.timer.code avail (s.planSlots i) n) }

/-- An ask of station `a` is answered: the notice is handed on and the last answered sequence written (R121, R127). -/
def State.answerAsk (a : Nat) (seq : BitVec 4) (n : Notice) (s : State) : State :=
  (s.handNotice a n).updAsk a (fun k => { k with lastAnswered := some seq })

/-- Set a station's ask status (R121). -/
def State.setAsk (a : Nat) (st : AskStatus) (s : State) : State := s.updAsk a (fun k => { k with status := st })

/-- The take of the ask `q`, which has left the Uplink Ask Queue (R60, R62, R63). -/
def State.takeAsk (q : Ask) (s : State) : State :=
  let f := q.fields
  let p := Pattern.ofBits f.pattern
  match firstFailure (s.askChecks q.station (askCount f) p f.cls) with
  | some st => (s.setAsk q.station .none).answerAsk q.station f.seq (.refusedAsk st f.seq)
  | none =>
    (s.setAsk q.station (.inFlight f.seq)).placeNew (fun i => .ask i f.seq f.leaseCode) (grantOfAsk f (p.getD .any))
      q.station

/-- The take of the LOCAL request in progress (R58, R59). -/
def State.takeLocal (e : Quad) (s : State) : State :=
  if e.op = .resize then (s.noteKind .localBus).takeResize e else (s.noteKind .localBus).takeCreate e

/-- One take: the engine, IDLE with work waiting, takes the item its arbiter chooses (R59, R60). -/
def State.takeOnce (s : State) : State :=
  if s.engine.context.isSome then s
  else
    match s.workChosen, s.port.inProgress, s.askQueue with
    | some .localBus, some e, _ => s.takeLocal e
    | some .uplink, _, q :: rest => State.takeAsk q { s.noteKind .uplink with askQueue := rest }
    | _, _, _ => s

/-- Takes follow one another, at most `fuel` of them, while the engine is IDLE and work waits (R59). -/
def State.takes : Nat → State → State
  | 0, s => s
  | fuel + 1, s => if s.takeDue then State.takes fuel s.takeOnce else s

/-- The number of items of work that wait for the engine or may come to wait for it. -/
def State.workWaiting (s : State) : Nat := s.askQueue.length + s.port.requests.length + 1

/-- "Whenever the engine is IDLE and work waits, the engine takes one item at once" (R59): every take that is due is
made before any other event sees the state (assumption log 9). -/
def State.catchUp (s : State) : State := s.takes s.workWaiting

/-! ## The commit point (R76 to R81) -/

/-- The engine is IDLE again (R76). -/
def State.endPlacement (s : State) : State := s.updEngine (fun e => { e with context := none })

/-- The result of a LOCAL placement is handed back to the port (R166). -/
def State.answerLocal (r : Answer) (s : State) : State :=
  match s.port.inProgress with
  | none => s
  | some e => s.handBack e r

/-- Test 1 of R76 holds: the placement is abandoned (R77). -/
def State.abandon (c : Context) (s : State) : State :=
  match c.kind with
  | .create i _ => (s.returnRecord i).endPlacement.answerLocal (.refused .stationGone)
  | .resize _ => s.endPlacement.answerLocal (.refused .stationGone)
  | .ask i _ _ => ((s.returnRecord i).setAsk c.station .none).endPlacement

/-- The outcome is NO_ROOM (R79). -/
def State.endNoRoom (c : Context) (s : State) : State :=
  match c.kind with
  | .create i _ => (s.returnRecord i).endPlacement.answerLocal (.refused .noRoom)
  | .resize _ => s.endPlacement.answerLocal (.refused .noRoom)
  | .ask i seq _ =>
    (((s.returnRecord i).setAsk c.station .none).answerAsk c.station seq (.refusedAsk .noRoom seq)).endPlacement

/-- Whether the grant of a RESIZE has been retired since the take (R78). -/
def State.resizeRetired (h : Handle) (s : State) : Bool :=
  !s.handlePasses h || (s.grant h.index.toNat).state == .draining

/-- Whether the commit retires a victim: it skips one whose handle fails or whose record is DRAINING (R80 step 1). -/
def State.victimStands (h : Handle) (s : State) : Bool :=
  s.handlePasses h && (s.grant h.index.toNat).state != .draining

/-- One victim of the commit: skipped, or retired by steps 1, 3 and 4 of R45 with PREEMPTED (R47 step 1, R80 step 1;
assumption log 22). -/
def State.retireVictim (h : Handle) (s : State) : State :=
  let i := h.index.toNat
  if s.victimStands h then
    State.noticeRevoked (some .preempted) (s.grant i).owner h i (s.clearPlan i)
  else s

/-- The commit counter advances, and the record placed holds the new value (R20). -/
def State.advanceCommit (i : Nat) (s : State) : State :=
  let n := s.commitCounter + 1
  State.updGrant i (fun g => { g with commitSeq := n }) { s with commitCounter := n }

/-- Steps 2 and 3 of R47: PLAN comes to give record `i` the slots of `t` and no other. -/
def State.takeSlots (i : Nat) (t : List Nat) (s : State) : State :=
  let s := t.foldl (fun s n => s.recordChange n (some i)) s
  ((s.planSlots i).filter (fun n => !t.contains n)).foldl (fun s n => s.recordChange n none) s

/-- A committed record is no longer PLACING; until the completion derives its state it stands as PENDING (R20, R23). -/
def Grant.placed (g : Grant) : Grant := { g with state := if g.state = .placing then .pending else g.state }

/-- The records a commit touches: the record placed, the victims it retires and the owners of the slots it takes (R44). -/
def State.touchedBy (i : Nat) (t : List Nat) (victims : List Handle) (s : State) : List Nat :=
  i :: ((victims.filter (fun h => s.victimStands h)).map (fun h => h.index.toNat)) ++ t.filterMap s.planAt

/-- The commit claim (R47, R80): victims, counter, changes, the record's own fields by `load`, completion. -/
def State.commitClaim (i : Nat) (t : List Nat) (victims : List Handle) (load : Grant → Grant) (s : State) : State :=
  let touched := s.touchedBy i t victims
  let s := victims.foldl (fun s h => s.retireVictim h) s
  let s := ((s.advanceCommit i).takeSlots i t).updGrant i (fun g => (load g).placed)
  s.complete touched

/-- The commit of a placement that has found slots (R80, R81). -/
def State.commit (c : Context) (t : List Nat) (victims : List Handle) (s : State) : State :=
  match c.kind with
  | .create i lease =>
    let s := s.commitClaim i t victims (Grant.withLease lease)
    let e := s.effectFor [i]
    let s := s.noticeOwner i (.granted (s.handle i) (s.grant i).stream 0 e.frame)
    s.endPlacement.answerLocal (.placed (s.handle i) e)
  | .resize h =>
    let i := h.index.toNat
    let s := s.commitClaim i t victims (fun g => { g with requested := c.newCount })
    let e := s.effectFor [i]
    let s := s.noticeOwner i (.shifted (s.handle i) c.newCount e.frame)
    s.endPlacement.answerLocal (.placed (s.handle i) e)
  | .ask i seq code =>
    let s := s.commitClaim i t victims (Grant.withLease (s.cfg.leaseFor code))
    let e := s.effectFor [i]
    ((s.setAsk c.station .none).answerAsk c.station seq
      (.granted (s.handle i) (s.grant i).stream seq e.frame)).endPlacement

/-- Whether the placement is a RESIZE whose grant has been retired since the take (R76, test 2). -/
def PlacementKind.retiredIn (k : PlacementKind) (s : State) : Bool :=
  match k with
  | .resize h => s.resizeRetired h
  | .create _ _ => false
  | .ask _ _ _ => false

/-- The commit point of the placement `c` (R76). -/
def State.endWith (c : Context) (s : State) : State :=
  if (s.station c.station).state.inMembership then
    if c.kind.retiredIn s then s.endPlacement.answerLocal (.refused .retiring)
    else
      match c.outcome with
      | .noRoom => s.endNoRoom c
      | .chosen t victims => s.commit c t victims
  else s.abandon c

/-- The commit point (R76); an IDLE engine has none. -/
def State.commitPoint (s : State) : State :=
  match s.engine.context with
  | none => s
  | some c => s.endWith c

end Sys2Proof.Machine
end

