-- ==== Sys2Proof/Machine/Decoder.lean ====
section
/-! DEFINITION. The uplink slots: the Station Roster's presence and integrity counting, and the Uplink Decoder
(06_the_station_roster.md, R98 to R105; 07_uplink_signalling.md, R122 to R130). -/

namespace Sys2Proof.Machine

/-! ## Joining (R102, R125) -/

/-- The Decoder's and the Notice Unit's part in the start of a join (R102, R139). -/
def Mailbox.joining (m : Mailbox) : Mailbox := { m.emptied with nextSeq := 1 }

/-- The start of a join (R102). -/
def State.startJoin (a : Nat) (s : State) : State :=
  let s := (s.updStation a (fun r => { r with missed := 0, badWords := 0, clashes := 0 })).moveStation a .joining
  let s := (s.updMailbox a Mailbox.joining).handNotice a .joined
  s.updAsk a (fun k => { k with lastAnswered := none })

/-- A JOIN of an ABSENT station: a join where it is not barred, else a stray word (R102, R125). -/
def State.joinFor (a : Nat) (s : State) : State :=
  if (s.station a).barred then s.offerLeft a else s.startJoin a

/-! ## A member's ASK (R126, R127) -/

/-- The ASK is refused BUSY (R127). -/
def State.refuseBusy (a : Nat) (seq : BitVec 4) (s : State) : State :=
  (s.handNotice a (.refusedAsk .busy seq)).updAsk a (fun k => { k with lastAnswered := some seq })

/-- The ASK is accepted into the Uplink Ask Queue (R126). -/
def State.acceptAsk (a : Nat) (f : AskFields) (s : State) : State :=
  let s := s.updAsk a (fun k => { k with status := .waiting f.seq })
  { s with askQueue := s.askQueue ++ [{ station := a, fields := f }] }

/-- The acceptance of an ASK. "An ask accepted while the engine is IDLE and no other work waits is taken by the engine at
once, and it is WAITING for no time that any other event can see" (R122), so the take is part of the acceptance. -/
def State.arriveAsk (a : Nat) (f : AskFields) (s : State) : State :=
  if s.engine.context.isNone && s.workChosen.isNone then (s.acceptAsk a f).takeOnce else s.acceptAsk a f

/-- A MEMBER station's ASK, after its ack (R126). -/
def State.askFor (a : Nat) (f : AskFields) (s : State) : State :=
  if (s.ask a).lastAnswered = some f.seq then s
  else
    match (s.ask a).status.seq with
    | some q => if q = f.seq then s else s.refuseBusy a f.seq
    | none => s.arriveAsk a f

/-! ## A good word by the station's state (R123 to R125) -/

/-- What a MEMBER station's word does after its ack (R123, R126 to R130). -/
def State.memberWord (a : Nat) (b : UplinkBody) (s : State) : State :=
  match b with
  | .keep => s
  | .join => s.enterLeaving a .rejoin
  | .ask f => s.askFor a f
  | .drop h => s.dropFor a h
  | .renew h code => s.renewFor a h code
  | .leave => s.enterLeaving a .left

/-- What an ABSENT station's word does (R125). -/
def State.absentWord (a : Nat) (b : UplinkBody) (s : State) : State :=
  match b with
  | .join => s.joinFor a
  | .keep => s.offerLeft a
  | .ask _ => s.offerLeft a
  | .drop _ => s.offerLeft a
  | .renew _ _ => s.offerLeft a
  | .leave => s.offerLeft a

/-- The Decoder's action on a good word, by the state in which the Roster hands it on (R123). No QUIET station's good
word arrives (R100). -/
def State.decodeWord (a : Nat) (ack : BitVec 4) (b : UplinkBody) (s : State) : State :=
  match (s.station a).state with
  | .absent => s.absentWord a b
  | .joining => s.takeAck a ack
  | .member => (s.takeAck a ack).memberWord a b
  | .quiet => s
  | .leaving => s

/-! ## The uplink slot event (R98 to R100) -/

/-- The station's slot was driven: missed becomes 0 where presence is counted (R98). -/
def State.markHeard (a : Nat) (s : State) : State :=
  if (s.station a).state.present then s.updStation a (fun r => { r with missed := 0 }) else s

/-- The thresholds, after a SILENT slot (R99). -/
def State.testThresholds (a : Nat) (s : State) : State :=
  let r := s.station a
  match r.state with
  | .joining => if s.cfg.lostAfter ≤ r.missed then s.failJoin a .lost else s
  | .member =>
    if s.cfg.lostAfter ≤ r.missed then s.enterLeaving a .lost
    else if s.cfg.quietAfter ≤ r.missed then s.moveStation a .quiet
    else s
  | .quiet => if s.cfg.lostAfter ≤ r.missed then s.enterLeaving a .lost else s
  | .absent => s
  | .leaving => s

/-- A SILENT uplink slot (R98). -/
def State.silentUplink (a : Nat) (s : State) : State :=
  if (s.station a).state.present then (s.updStation a (fun r => { r with missed := satInc r.missed })).testThresholds a
  else s

/-- A MANY uplink slot: a clash; the word is discarded (R98). -/
def State.clashUplink (a : Nat) (s : State) : State :=
  ((s.markHeard a).updStation a (fun r => { r with clashes := satInc r.clashes })).raise .clash

/-- A bad word is counted and its content discarded (R98). -/
def State.countBadWord (a : Nat) (s : State) : State := s.updStation a (fun r => { r with badWords := satInc r.badWords })

/-- A QUIET station whose word has good parity is MEMBER again (R100). -/
def State.returnFromQuiet (a : Nat) (s : State) : State :=
  if (s.station a).state = .quiet then s.moveStation a .member else s

/-- A word received with sense ONE (R98, R123). -/
def State.receiveWord (a : Nat) (w : Word) (s : State) : State :=
  let s := s.markHeard a
  if oddOnes w then
    let s := s.returnFromQuiet a
    match uplinkBody w with
    | none => s.countBadWord a
    | some b => s.decodeWord a (uplinkAck w) b
  else s.countBadWord a

/-- The slot event of uplink slot `a` (R98). -/
def State.uplinkSlot (a : Nat) (sense : Sense) (w : Word) (s : State) : State :=
  match sense with
  | .silent => s.silentUplink a
  | .one => s.receiveWord a w
  | .many => s.clashUplink a

end Sys2Proof.Machine
end

