-- ==== Sys2Proof/Machine/Downlink.lean ====
section
/-! DEFINITION. The downlink arbitration and the sends (08_notices_and_the_downlink.md, R140, R143 to R147). -/

namespace Sys2Proof.Machine

/-- Whether a head is unsent, or awaits acknowledgement with its countdown at 0 (R143). -/
def SendState.due (h : SendState) : Bool := h.sends == 0 || h.countdown == 0

/-- Whether station `a` is eligible (R143). -/
def State.eligible (a : Nat) (s : State) : Bool :=
  match (s.mailbox a).queue with
  | [] => false
  | n :: _ =>
    match (s.station a).state with
    | .joining => (s.mailbox a).head.due
    | .member => (s.mailbox a).head.due
    | .absent => n == .left
    | .quiet => false
    | .leaving => false

/-- Whether an eligible station's head has reached the send limit (R146). -/
def State.atSendLimit (a : Nat) (s : State) : Bool :=
  ((s.station a).state == .joining || (s.station a).state == .member)
    && decide (1 ≤ (s.mailbox a).head.sends) && decide (s.cfg.sendLimit.toNat ≤ (s.mailbox a).head.sends)

/-- The report of a station whose head has reached the send limit (R104, R106, R146). -/
def State.reportNoAck (a : Nat) (s : State) : State :=
  if (s.station a).state = .joining then s.failJoin a .noAck else s.enterLeaving a .noAck

/-- The sequence after `q`: 1..15 in a ring (R140). -/
def nextSequence (q : BitVec 4) : BitVec 4 := if q = 15 then 1 else q + 1

/-- The sequence a head goes out with: its own, else the station's next (R140, R145). -/
def Mailbox.sendSequence (m : Mailbox) : BitVec 4 := m.head.sequence.getD m.nextSeq

/-- A send of a head that is not LEFT (R145). -/
def Mailbox.sent (interval : BitVec 4) (m : Mailbox) : Mailbox :=
  { m with
    head := { sequence := some m.sendSequence, sends := m.head.sends + 1, countdown := interval.toNat }
    nextSeq := if m.head.sequence.isNone then nextSequence m.nextSeq else m.nextSeq }

/-- The send of a LEFT head: removed, and the stray hold-off set (R138, R145). -/
def Mailbox.sentLeft (m : Mailbox) : Mailbox := { m.removeHead with holdoff := Config.strayHoldoff }

/-- Station `a` is served: its head goes into the next pair of downlink slots (R144, R145). -/
def State.serveStation (a : Nat) (s : State) : State :=
  let m := s.mailbox a
  match m.queue with
  | [] => s
  | n :: _ =>
    let left := n == .left
    let words := noticeWords a (if left then 0 else m.sendSequence) n
    let s := s.updMailbox a (fun m => if left then m.sentLeft else m.sent s.cfg.retryInterval)
    { s with downlink := s.downlink ++ words, arbiterPointer := a }

/-- The stations in the order of examination, with `free` pairs of slots left (R144). -/
def State.examine : List Nat → Nat → State → State
  | [], _, s => s
  | _ :: _, 0, s => s
  | a :: rest, free + 1, s =>
    if s.eligible a then
      if s.atSendLimit a then State.examine rest (free + 1) (s.reportNoAck a)
      else State.examine rest free (s.serveStation a)
    else State.examine rest (free + 1) s

/-- The addresses after the pointer up to 47, then 1 up to the pointer (R144). -/
def examinationOrder (pointer : Nat) : List Nat :=
  List.range' (pointer + 1) (Config.stationCount - pointer) ++ List.range' 1 pointer

/-- The downlink arbitration of the frame (R143 to R146). -/
def State.arbitrate (s : State) : State :=
  State.examine (examinationOrder s.arbiterPointer) Config.servedLimit { s with downlink := [] }

end Sys2Proof.Machine
end

