-- ==== Sys2Proof/Machine/Monitor.lean ====
section
/-! DEFINITION. The Slot Monitor (09_slot_policing.md, R152 to R157) and its taint claim (R36). -/

namespace Sys2Proof.Machine

/-- An intrusion is counted, saturating, and sets INTRUSION (R156, R157). -/
def State.countIntrusion (s : State) : State := State.raise .intrusion { s with intrusions := satInc s.intrusions }

/-- A taint claim: taint[n] becomes the carried count (R36). -/
def State.taintClaim (n : Nat) (frames : BitVec 8) (s : State) : State :=
  s.updMap (fun m => { m with taint := m.taint.put 0 n frames })

/-- An intrusion in the payload slot `n` (R156). -/
def State.intrude (n : Nat) (s : State) : State :=
  let s := s.countIntrusion
  if s.cfg.taintFrames = 0 then s else s.taintClaim n s.cfg.taintFrames

/-- The Monitor's report of a FAULTED retirement to the Roster, with the suspend-on-fault bit (R113, R155). -/
def State.reportFault (owner : Option Nat) (s : State) : State :=
  match owner with
  | none => s
  | some a => if s.cfg.suspendOnFault then s.setSuspended a true else s

/-- A retirement for FAULTED (R155). -/
def State.retireFaulted (i : Nat) (s : State) : State :=
  let owner := (s.grant i).owner
  ((s.retire [i] (some .faulted)).1.raise .fault).reportFault owner

/-- A MANY slot charged to grant `i` (R154). -/
def State.chargeFault (i : Nat) (s : State) : State :=
  let s := s.updGrant i (fun g => { g with faultCount := satInc g.faultCount })
  if (s.grant i).state.counted ∧ s.cfg.faultLimit ≤ (s.grant i).faultCount then s.retireFaulted i else s

/-- A ONE slot marks grant `i` as used (R153). -/
def State.markUsed (i : Nat) (s : State) : State := s.updGrant i (fun g => { g with usedThisTick := true })

/-- The slot event of the payload slot `n` (R153, R156). -/
def State.payloadSlot (n : Nat) (sense : Sense) (s : State) : State :=
  match s.activeAt n, sense with
  | _, .silent => s
  | some i, .one => s.markUsed i
  | some i, .many => s.chargeFault i
  | none, .one => s.intrude n
  | none, .many => s.intrude n

/-- The slot event of slot 0 or of a slot 48..63 (R157). -/
def State.overheadSlot (sense : Sense) (s : State) : State :=
  match sense with
  | .one => s
  | .silent => s.countIntrusion
  | .many => s.countIntrusion

end Sys2Proof.Machine
end

