-- ==== Sys2Proof/Machine/Frames.lean ====
section
/-! DEFINITION. The Frame Timer: run and stop requests, the frame start, slot events, the arbitration's place, the frame
end and the events that are parts of it (01_the_highway_frame.md, R5 to R11; R37, R85, R138, R142). -/

namespace Sys2Proof.Machine

/-- The place in the frame, while RUNNING. -/
def Timer.place (t : Timer) : Option FramePlace :=
  match t.timing with
  | .stopped => none
  | .running p => some p

/-- Move to a place in the frame. -/
def State.goTo (p : FramePlace) (s : State) : State := s.updTimer (fun t => { t with timing := .running p })

/-! ## Run and stop requests (R5) -/

/-- RUN = 1 written (R5). -/
def Timer.runRequest (t : Timer) : Timer :=
  match t.timing, t.request with
  | .stopped, .none => { t with request := .start }
  | .running _, .stop => { t with request := .none }
  | _, _ => t

/-- RUN = 0 written (R5). -/
def Timer.stopRequest (t : Timer) : Timer :=
  match t.timing, t.request with
  | .stopped, .start => { t with request := .none }
  | .running _, .none => { t with request := .stop }
  | _, _ => t

/-- What a read of RUN returns: the state the highway is headed for (R5). -/
def Timer.runBit (t : Timer) : Bool :=
  match t.timing, t.request with
  | .stopped, .start => true
  | .running _, .none => true
  | _, _ => false

/-! ## The frame start (R6, R9) -/

/-- The frame start of frame FN: the Slot Map swaps and seals, and slot 0 begins (R9, R49, R50). -/
def State.frameStart (s : State) : State := s.epochsAtStart.goTo (.slot 0)

/-- The first HCLK edge while STOPPED with START pending: RUNNING, and the frame start of FN (R6). -/
def State.highwayStart (s : State) : State :=
  if s.timer.timing = .stopped ∧ s.timer.request = .start then
    State.frameStart (s.updTimer (fun t => { t with timing := .running .startDue, request := .none }))
  else s

/-! ## The frame end (R7, R11, R37, R85, R138, R142) -/

/-- The lease tick, where FN is a tick frame (R85). -/
def State.tickIfDue (s : State) : State := if s.timer.tickFrame then s.tick else s

/-- Every nonzero taint count goes down by 1 (R37). -/
def State.decayTaint (s : State) : State :=
  s.updMap (fun m => { m with taint := m.taint.mapValues 0 (fun _ v => decNonzero v) })

/-- A head's retry countdown at a frame end, in a station in this state (R142). -/
def SendState.countDown (st : StationState) (h : SendState) : SendState :=
  if st = .joining ∨ st = .member then { h with countdown := h.countdown - 1 } else h

/-- What a frame end does to a station's mailbox (R138, R142). -/
def Mailbox.frameEnd (st : StationState) (m : Mailbox) : Mailbox :=
  { m with head := m.head.countDown st, holdoff := m.holdoff - 1 }

/-- Retry countdowns and stray hold-offs at a frame end (R138, R142). -/
def State.countDownNotices (s : State) : State :=
  { s with mailboxes := s.mailboxes.mapValues Mailbox.fresh (fun a m => m.frameEnd (s.station a).state) }

/-- What follows a frame end: the next frame, or a stop (R7). -/
def Timer.afterFrame (t : Timer) : Timer :=
  if t.request = .stop then { t with timing := .stopped, request := .none, fn := t.fn + 1 }
  else { t with timing := .running .startDue, fn := t.fn + 1 }

/-- The frame end of frame FN (R7, R11): the parts of it not taken yet, and then the next frame or the stop. -/
def State.frameEnd (taken : EndParts) (s : State) : State :=
  let s := if taken.leases then s else s.tickIfDue
  let s := if taken.taint then s else s.decayTaint
  let s := if taken.notices then s else s.countDownNotices
  s.updTimer Timer.afterFrame

/-! ## What is due at the present edge (assumption log 7) -/

/-- Take the frame end that is due. -/
def State.endIfDue (s : State) : State :=
  match s.timer.place with
  | some (.endDue taken) => s.frameEnd taken
  | some .startDue | some (.slot _) | some .arbitrationDue | none => s

/-- Take the frame start that is due. -/
def State.startIfDue (s : State) : State := if s.timer.place = some .startDue then s.frameStart else s

/-- Take the arbitration that is due; slot 48 begins (R143). -/
def State.arbitrateIfDue (s : State) : State :=
  if s.timer.place = some .arbitrationDue then s.arbitrate.goTo (.slot 48) else s

/-- Take every frame event that precedes the slot now to be closed. -/
def State.reachSlot (s : State) : State := s.endIfDue.startIfDue.arbitrateIfDue

/-! ## Slot events (R10) -/

/-- The place that follows the slot event of slot `n` (R10, R11, R143). -/
def LengthCode.placeAfter (c : LengthCode) (n : Nat) : FramePlace :=
  if n = 47 then .arbitrationDue else if n + 1 = c.slots then .endDue .none else .slot (n + 1)

/-- What the blocks do at the slot event of slot `n` (R98, R152). -/
def State.closeSlot (n : Nat) (sense : Sense) (w : Word) (s : State) : State :=
  match slotClass n with
  | .sync => s.overheadSlot sense
  | .uplink => s.uplinkSlot n sense w
  | .downlink => s.overheadSlot sense
  | .payload => s.payloadSlot n sense

/-- The slot event of slot `n`, and the move to what follows it (R10). -/
def State.slotEventAt (n : Nat) (sense : Sense) (w : Word) (s : State) : State :=
  (s.closeSlot n sense w).goTo (s.timer.code.placeAfter n)

/-- The slot event of the slot in progress, after the frame events due before it (R10, assumption log 7). -/
def State.slotEvent (sense : Sense) (w : Word) (s : State) : State :=
  let s := s.reachSlot
  match s.timer.place with
  | some (.slot n) => s.slotEventAt n sense w
  | some .startDue | some .arbitrationDue | some (.endDue _) | none => s

/-- The uplink slot in progress ends with sense ONE and this word; no event in another slot (assumption log 11). -/
def State.uplinkWordEvent (w : Word) (s : State) : State :=
  match s.timer.place with
  | some (.slot n) => if slotClass n = .uplink then s.slotEventAt n .one w else s
  | some .startDue | some .arbitrationDue | some (.endDue _) | none => s

/-! ## Parts of a frame end taken as steps of their own, each whole (assumption log 8) -/

/-- The parts taken of the frame end that is due, none where no frame end is due. -/
def State.partsTaken (s : State) : Option EndParts :=
  match s.timer.place with
  | some (.endDue taken) => some taken
  | some .startDue | some (.slot _) | some .arbitrationDue | none => none

/-- The Lease Unit's part, the lease tick of a tick frame (R85), where `due` and not taken yet. -/
def State.takeTick (due : Bool) (s : State) : State :=
  match s.partsTaken with
  | none => s
  | some p => if due && s.timer.tickFrame && !p.leases then s.tick.goTo (.endDue { p with leases := true }) else s

/-- The Slot Map's part: every taint count is decremented (R37), where `due` and not taken yet. -/
def State.takeDecay (due : Bool) (s : State) : State :=
  match s.partsTaken with
  | none => s
  | some p => if due && !p.taint then s.decayTaint.goTo (.endDue { p with taint := true }) else s

/-- The Notice Unit's part: every retry countdown and stray hold-off is decremented (R138, R142), where `due` and not
taken yet. -/
def State.takeCountdowns (due : Bool) (s : State) : State :=
  match s.partsTaken with
  | none => s
  | some p => if due && !p.notices then s.countDownNotices.goTo (.endDue { p with notices := true }) else s

/-- taint[n] reaches 0, in the decrement of every count (R37). -/
def State.expireTaint (n : Nat) (s : State) : State := s.takeDecay (s.taintAt n == 1)

/-- The retry countdown of station `a`'s head reaches 0, in the decrement of every countdown (R142). -/
def State.expireCountdown (a : Nat) (s : State) : State :=
  s.takeCountdowns
    ((s.mailbox a).head.countdown == 1 && ((s.mailbox a).head.countDown (s.station a).state).countdown == 0)

/-- The stray hold-off of station `a` reaches 0, in the decrement of every hold-off (R138). -/
def State.expireHoldoff (a : Nat) (s : State) : State := s.takeCountdowns ((s.mailbox a).holdoff == 1)

/-- The lease tick (R85). -/
def State.leaseTick (s : State) : State := s.takeTick true

/-- Whether the tick's countdown takes this record's lease to 0 (R87, R89). -/
def Grant.expiresAtTick (g : Grant) : Bool := g.state.counted && g.leaseReload != 0 && g.leaseRemaining == 1

/-- The lease of record `i` reaches 0, in the lease tick of every record: the tick is one event, taken whole (R85, R89,
R95). -/
def State.leaseExpired (i : Nat) (s : State) : State :=
  s.takeTick (decide (i < Config.grantCount) && (s.grant i).expiresAtTick)

end Sys2Proof.Machine
end

