-- ==== Sys2Proof/Machine/Registers.lean ====
section
/-! DEFINITION. The register window: reads, writes and the acceptance of configuration writes
(11_register_window_interrupts_and_pins.md, R178 to R186; R16, R54, R101, R148, R158, R159). -/

namespace Sys2Proof.Machine

/-- A write is held where it is accepted; a refused one changes nothing and sets CONFIG_REFUSED (R182). -/
def State.configure (accepted : Bool) (f : State → State) (s : State) : State :=
  if accepted then f s else s.raise .configRefused

/-! ## Configuration writes -/

/-- No epoch is pending, OPEN or SEALED (R16, R54). -/
def SlotMap.noEpoch (m : SlotMap) : Bool := m.openEpoch.isNone && m.sealedEpoch.isNone

/-- Condition 2 of R16: every record is FREE, so the Free Record Queue holds all 240 indices. -/
def State.allFree (s : State) : Bool :=
  s.freeQueue.length == Config.grantCount && (List.range Config.grantCount).all (fun i => (s.grant i).state == .free)

/-- A FRAME_LENGTH write (R16). -/
def State.writeFrameLength (w : Word) (s : State) : State :=
  s.configure (s.timer.timing == .stopped && s.allFree && s.map.noEpoch) (fun s =>
    (s.updTimer (fun t => { t with code := .ofBits (w.extractLsb' 0 2) })).updMap (fun m => { m with taint := .empty }))

/-- Even and 4..254 (R54). -/
def leadValid (v : BitVec 8) : Bool := v.toNat % 2 == 0 && decide (4 ≤ v.toNat)

/-- An EPOCH_LEAD write (R54). -/
def State.writeEpochLead (w : Word) (s : State) : State :=
  s.configure (s.map.noEpoch && leadValid (byte0 w)) (fun s => s.updCfg (fun c => { c with epochLead := byte0 w }))

/-- QUIET_AFTER in 1..254 and LOST_AFTER in QUIET_AFTER+1..255 (R101). -/
def limitsValid (q l : BitVec 8) : Bool := decide (1 ≤ q.toNat) && decide (q.toNat < l.toNat)

/-- A PRESENCE_LIMITS write (R101). -/
def State.writePresenceLimits (w : Word) (s : State) : State :=
  s.configure (limitsValid (byte0 w) (byte1 w)) (fun s =>
    s.updCfg (fun c => { c with quietAfter := byte0 w, lostAfter := byte1 w }))

/-- A NOTICE_TIMING write: both values in 1..15 (R148). -/
def State.writeNoticeTiming (w : Word) (s : State) : State :=
  let interval : BitVec 4 := w.extractLsb' 0 4
  let limit : BitVec 4 := w.extractLsb' 8 4
  s.configure (interval != 0 && limit != 0) (fun s =>
    s.updCfg (fun c => { c with retryInterval := interval, sendLimit := limit }))

/-- A FAULT_LIMIT write: 1..255 (R159). -/
def State.writeFaultLimit (w : Word) (s : State) : State :=
  s.configure (byte0 w != 0) (fun s => s.updCfg (fun c => { c with faultLimit := byte0 w }))

/-- A write to INTRUSION_COUNT sets the counter to 0 (R158). -/
def State.writeIntrusionCount (s : State) : State := { s with intrusions := 0 }

/-- A POLICY write sets both bits (R183). -/
def State.writePolicy (w : Word) (s : State) : State :=
  s.updCfg (fun c => { c with preempt := w.getLsbD 0, suspendOnFault := w.getLsbD 1 })

/-- A LEASE_CODEk write, k = 1..15 (R84). -/
def State.writeLeaseCode (k : Nat) (w : Word) (s : State) : State :=
  s.updCfg (fun c => { c with leaseCodes := c.leaseCodes.setIfInBounds (k - 1) (w.setWidth 16) })

/-- A CONTROL write (R5, R180). -/
def State.writeControl (w : Word) (s : State) : State :=
  s.updTimer (if w.getLsbD 0 then Timer.runRequest else Timer.stopRequest)

/-! ## Interrupt registers (R185, R186) -/

/-- A write to INT_FLAGS (R185). -/
def State.writeIntFlags (w : Word) (s : State) : State := { s with ints := s.ints.clear (w.extractLsb' 0 9) }

/-- A write to INT_ENABLE sets all nine enables (R186). -/
def State.writeIntEnable (w : Word) (s : State) : State := { s with ints := { s.ints with enable := w.extractLsb' 0 9 } }

/-! ## The request staging words (R161) -/

/-- Replace staging word RQW`k`, k = 0..3. -/
def Quad.withWord (k : Nat) (w : Word) (q : Quad) : Quad :=
  match k with
  | 0 => { q with w0 := w }
  | 1 => { q with w1 := w }
  | 2 => { q with w2 := w }
  | 3 => { q with w3 := w }
  | _ => q

/-- A write to RQWk (R161). -/
def State.writeStaging (k : Nat) (w : Word) (s : State) : State :=
  s.updPort (fun p => { p with staging := p.staging.withWord k w })

/-! ## The whole window (R179, R180) -/

/-- A write to the word address A[7:2]; a write to an RO or unassigned address is ignored (R179, R180). -/
def State.busWrite (addr : BitVec 6) (w : Word) (s : State) : State :=
  match addr.toNat with
  | 0x01 => s.writeControl w
  | 0x05 => s.writeFrameLength w
  | 0x06 => s.writeEpochLead w
  | 0x07 => s.writePresenceLimits w
  | 0x08 => s.writeNoticeTiming w
  | 0x09 => s.updCfg (fun c => { c with leaseWarn := byte0 w })
  | 0x0A => s.updCfg (fun c => { c with idleLimit := byte0 w })
  | 0x0B => s.writeFaultLimit w
  | 0x0C => s.updCfg (fun c => { c with taintFrames := byte0 w })
  | 0x0D => s.writePolicy w
  | 0x0E => s.writeIntFlags w
  | 0x0F => s.writeIntEnable w
  | 0x10 => s.writeIntrusionCount
  | 0x24 => s.post
  | 0x2A => s.popResult
  | n =>
    if 0x11 ≤ n ∧ n ≤ 0x1F then s.writeLeaseCode (n - 0x10) w
    else if 0x20 ≤ n ∧ n ≤ 0x23 then s.writeStaging (n - 0x20) w
    else s

/-- The code of the pending request in STATUS (R180). -/
def RunRequest.bits : RunRequest → BitVec 2
  | .none => 0
  | .start => 1
  | .stop => 2

/-- STATUS word 0 (R180, R181). -/
def State.status0 (s : State) : Word :=
  0#8 ++ s.map.sealedEpoch.elim 0 Epoch.number ++ s.map.openEpoch.elim 0 Epoch.number
    ++ BitVec.ofBool s.port.inProgress.isSome ++ BitVec.ofBool s.map.sealedEpoch.isSome
    ++ BitVec.ofBool s.map.openEpoch.isSome ++ s.timer.code.bits ++ s.timer.request.bits
    ++ BitVec.ofBool s.timer.place.isSome

/-- STATUS word 1 (R180, R181). -/
def State.status1 (s : State) : Word :=
  0#14 ++ BitVec.ofBool s.engine.context.isSome ++ BitVec.ofNat 6 s.askQueue.length
    ++ BitVec.ofNat 6 s.port.results.length ++ BitVec.ofNat 5 s.port.requests.length

/-- RSWk: word `k` of the head result, 0 where there is none (R163). -/
def State.resultWord (k : Nat) (s : State) : Word :=
  match s.port.results, k with
  | q :: _, 0 => q.w0
  | q :: _, 1 => q.w1
  | q :: _, 2 => q.w2
  | q :: _, 3 => q.w3
  | _, _ => 0

/-- What a read of the word address A[7:2] returns (R179 to R181). WO and unassigned addresses read 0. -/
def State.registerRead (addr : BitVec 6) (s : State) : Word :=
  match addr.toNat with
  | 0x00 => Config.identity
  | 0x01 => BitVec.setWidth 32 (BitVec.ofBool s.timer.runBit)
  | 0x02 => s.status0
  | 0x03 => s.status1
  | 0x04 => s.timer.fn.setWidth 32
  | 0x05 => s.timer.code.bits.setWidth 32
  | 0x06 => s.cfg.epochLead.setWidth 32
  | 0x07 => 0#16 ++ s.cfg.lostAfter ++ s.cfg.quietAfter
  | 0x08 => 0#20 ++ s.cfg.sendLimit ++ 0#4 ++ s.cfg.retryInterval
  | 0x09 => s.cfg.leaseWarn.setWidth 32
  | 0x0A => s.cfg.idleLimit.setWidth 32
  | 0x0B => s.cfg.faultLimit.setWidth 32
  | 0x0C => s.cfg.taintFrames.setWidth 32
  | 0x0D => 0#30 ++ BitVec.ofBool s.cfg.suspendOnFault ++ BitVec.ofBool s.cfg.preempt
  | 0x0E => s.ints.flags.setWidth 32
  | 0x0F => s.ints.enable.setWidth 32
  | 0x10 => s.intrusions.setWidth 32
  | 0x20 => s.port.staging.w0
  | 0x21 => s.port.staging.w1
  | 0x22 => s.port.staging.w2
  | 0x23 => s.port.staging.w3
  | 0x25 => BitVec.ofNat 32 (Config.requestLimit - s.port.requests.length)
  | 0x26 => s.resultWord 0
  | 0x27 => s.resultWord 1
  | 0x28 => s.resultWord 2
  | 0x29 => s.resultWord 3
  | 0x2B => BitVec.ofNat 32 s.port.results.length
  | n => if 0x11 ≤ n ∧ n ≤ 0x1F then (s.cfg.leaseFor (BitVec.ofNat 4 (n - 0x10))).setWidth 32 else 0

/-- What a read access of the local bus returns; none while RESETn is LOW, when no access is taken (R187). Takes that are
due come before it, as before any other event (R59, R178; assumption log 9). -/
def State.busRead (addr : BitVec 6) (s : State) : Option Word :=
  if s.inReset then none else some (s.catchUp.registerRead addr)

/-- The event of a read access: D[31:0] carries the word as the register stands, and nothing changes, but that a read of
INT_FLAGS ends the freshness of every flag (R178, R185). -/
def State.readAccess (addr : BitVec 6) (s : State) : State :=
  { s with readData := s.registerRead addr, ints := if addr = 0x0E then s.ints.afterRead else s.ints }

end Sys2Proof.Machine
end

