-- ==== Sys2Proof/Machine/Events.lean ====
section
/-! DEFINITION. What every command but a reset and PLACEMENT_TAKE shares: nothing happens while RESETn is LOW, and a
take that is due is made at once, before any other event, unless the event falls together with it. -/

namespace Sys2Proof.Machine

/-- Whether an event that led from `s` to `t` handed the engine work: LOCAL work, or an ask at the queue's tail (R58). -/
def State.broughtWork (s t : State) : Bool :=
  (s.port.inProgress.isNone && t.port.inProgress.isSome) || decide (s.askQueue.length < t.askQueue.length)

/-- Whether an event from `s` to `t` falls together with the take that is due and is taken first: the queue puts
PLACEMENT_TAKE right after it (assumption log 5). Work that has just arrived does not come before the work already
waiting alone (R59), and an ask that an IDLE engine takes at once never waits for this take (R122, `arriveAsk`). -/
def State.precedesTake (s t : State) : Bool := s.pending.head? == some .placementTake && !s.broughtWork t

/-- One event of the part, taken whole. While RESETn is LOW none is taken (R12, R187; assumption log 3). "Whenever the
engine is IDLE and work waits, the engine takes one item at once" (R59; assumption log 9): every take that is due comes
before the event, but where the queue puts the take after it. -/
def State.event (f : State → State) (s : State) : Host.Outcome State Fault Refusal :=
  .next (if s.inReset then s else if s.precedesTake (f s) then f s else f s.catchUp)

end Sys2Proof.Machine
end

