-- ==== Sys2Proof/Machine/EngineCommands.lean ====
section
/-! DEFINITION. The meanings of PLACEMENT_TAKE and COMMIT_POINT (R60, R76). -/

namespace Sys2Proof.Machine

/-- PLACEMENT_TAKE (R59, R60): an IDLE engine with waiting work makes one take. -/
def execPlacementTake (s : State) : Host.Outcome State Fault Refusal := .next (if s.inReset then s else s.takeOnce)

/-- COMMIT_POINT (R76): the engine ends its placement. The take of that placement comes before it in every case. -/
def execCommitPoint (s : State) : Host.Outcome State Fault Refusal :=
  .next (if s.inReset then s else s.catchUp.commitPoint)

end Sys2Proof.Machine
end

