-- ==== Sys2Proof/Machine/HighwayCommands.lean ====
section
/-! DEFINITION. The meanings of the Frame Timer's events and of the parts of a frame end (R6 to R11, R37, R85, R89, R138,
R142, R143), and DEPARTURE_COMPLETE (R108). -/

namespace Sys2Proof.Machine

/-- HIGHWAY_START (R6): a rising edge of HCLK while STOPPED with START pending. -/
def execHighwayStart (s : State) : Host.Outcome State Fault Refusal := s.event State.highwayStart

/-- FRAME_START (R9): the frame start that is due, after the frame end due before it (assumption log 7). -/
def execFrameStart (s : State) : Host.Outcome State Fault Refusal := s.event (fun s => s.endIfDue.startIfDue)

/-- SLOT_EVENT (R10, R14). -/
def execSlotEvent (act : BitVec 2) (hsd : Word) (s : State) : Host.Outcome State Fault Refusal :=
  s.event (State.slotEvent (Sense.ofAct act) hsd)

/-- DOWNLINK_ARBITRATION (R143). -/
def execDownlinkArbitration (s : State) : Host.Outcome State Fault Refusal := s.event State.arbitrateIfDue

/-- FRAME_END (R7, R11). -/
def execFrameEnd (s : State) : Host.Outcome State Fault Refusal := s.event State.endIfDue

/-- TAINT_EXPIRED (R37). -/
def execTaintExpired (slot : BitVec 10) (s : State) : Host.Outcome State Fault Refusal :=
  s.event (State.expireTaint slot.toNat)

/-- RETRY_COUNTDOWN_EXPIRED (R142). -/
def execRetryCountdownExpired (station : BitVec 6) (s : State) : Host.Outcome State Fault Refusal :=
  s.event (State.expireCountdown station.toNat)

/-- STRAY_HOLDOFF_EXPIRED (R138). -/
def execStrayHoldoffExpired (station : BitVec 6) (s : State) : Host.Outcome State Fault Refusal :=
  s.event (State.expireHoldoff station.toNat)

/-- LEASE_TICK (R85). -/
def execLeaseTick (s : State) : Host.Outcome State Fault Refusal := s.event State.leaseTick

/-- LEASE_EXPIRED (R89). -/
def execLeaseExpired (index : BitVec 8) (s : State) : Host.Outcome State Fault Refusal :=
  s.event (State.leaseExpired index.toNat)

/-- DEPARTURE_COMPLETE (R108, R109): a LEAVING station that holds no record becomes ABSENT. -/
def execDepartureComplete (station : BitVec 6) (s : State) : Host.Outcome State Fault Refusal :=
  s.event (State.departIfDone station.toNat)

end Sys2Proof.Machine
end

