-- ==== Sys2Proof/Machine/RegisterCommands.lean ====
section
/-! DEFINITION. The meanings of the local-bus accesses (R5, R16, R54, R101, R148, R158, R159, R161, R163, R182 to R186). -/

namespace Sys2Proof.Machine

/-- RQPOST (R161); the value written does not matter. -/
def execRqpost (_data : Word) (s : State) : Host.Outcome State Fault Refusal := s.event State.post

/-- RSPOP (R163); the value written does not matter. -/
def execRspop (_data : Word) (s : State) : Host.Outcome State Fault Refusal := s.event State.popResult

/-- RUN_REQUEST (R5): RUN = 1 written. -/
def execRunRequest (s : State) : Host.Outcome State Fault Refusal := s.event (State.updTimer Timer.runRequest)

/-- STOP_REQUEST (R5): RUN = 0 written. -/
def execStopRequest (s : State) : Host.Outcome State Fault Refusal := s.event (State.updTimer Timer.stopRequest)

/-- FRAME_LENGTH_WRITE (R16). -/
def execFrameLengthWrite (data : Word) (s : State) : Host.Outcome State Fault Refusal :=
  s.event (State.writeFrameLength data)

/-- EPOCH_LEAD_WRITE (R54). -/
def execEpochLeadWrite (data : Word) (s : State) : Host.Outcome State Fault Refusal :=
  s.event (State.writeEpochLead data)

/-- PRESENCE_LIMITS_WRITE (R101). -/
def execPresenceLimitsWrite (data : Word) (s : State) : Host.Outcome State Fault Refusal :=
  s.event (State.writePresenceLimits data)

/-- NOTICE_TIMING_WRITE (R148). -/
def execNoticeTimingWrite (data : Word) (s : State) : Host.Outcome State Fault Refusal :=
  s.event (State.writeNoticeTiming data)

/-- FAULT_LIMIT_WRITE (R159). -/
def execFaultLimitWrite (data : Word) (s : State) : Host.Outcome State Fault Refusal :=
  s.event (State.writeFaultLimit data)

/-- INTRUSION_COUNT_WRITE (R158); the value written does not matter. -/
def execIntrusionCountWrite (_data : Word) (s : State) : Host.Outcome State Fault Refusal :=
  s.event State.writeIntrusionCount

/-- INT_FLAGS_READ (R185): the read access of word address 0x0E, the one read that changes anything (R178). -/
def execIntFlagsRead (s : State) : Host.Outcome State Fault Refusal := s.event (State.readAccess 0x0E)

/-- INT_FLAGS_WRITE (R185). -/
def execIntFlagsWrite (data : Word) (s : State) : Host.Outcome State Fault Refusal := s.event (State.writeIntFlags data)

/-- INT_ENABLE_WRITE (R186). -/
def execIntEnableWrite (data : Word) (s : State) : Host.Outcome State Fault Refusal :=
  s.event (State.writeIntEnable data)

/-- REGISTER_WRITE (R180, R182): a write to any word address. An address whose write is a row of its own acts as that
row (assumption log 18). -/
def execRegisterWrite (addr : BitVec 6) (data : Word) (s : State) : Host.Outcome State Fault Refusal :=
  s.event (State.busWrite addr data)

end Sys2Proof.Machine
end

