-- ==== Sys2Proof/Machine/RequestCommands.lean ====
section
/-! DEFINITION. The meanings of the requests: each is the writing of its four words to RQW0 to RQW3 and the post of them,
and the port takes it in the same event where it can (R161, R164, R165; assumption log 10). -/

namespace Sys2Proof.Machine

/-- CREATE (R166). -/
def execCreate (head : RequestHead) (fields : CreateFields) (s : State) : Host.Outcome State Fault Refusal :=
  s.event (State.request (createEntry head fields))

/-- RESIZE (R166). -/
def execResize (head : RequestHead) (handle : Handle) (count : BitVec 7) (s : State) :
    Host.Outcome State Fault Refusal :=
  s.event (State.request (resizeEntry head handle count))

/-- RELEASE (R167). -/
def execRelease (head : RequestHead) (handle : Handle) (s : State) : Host.Outcome State Fault Refusal :=
  s.event (State.request (handleEntry 3 head handle))

/-- RENEW (R169). -/
def execRenew (head : RequestHead) (handle : Handle) (given : Bool) (lease : BitVec 16) (s : State) :
    Host.Outcome State Fault Refusal :=
  s.event (State.request (renewEntry head handle given lease))

/-- SET_STATION (R111, R170). -/
def execSetStation (head : RequestHead) (quota : BitVec 10) (maxClass : BitVec 2) (barred : Bool) (s : State) :
    Host.Outcome State Fault Refusal :=
  s.event (State.request (setStationEntry head quota maxClass barred))

/-- EVICT (R110, R170). -/
def execEvict (head : RequestHead) (s : State) : Host.Outcome State Fault Refusal :=
  s.event (State.request (plainEntry 6 head))

/-- RETIRE_ALL (R168). -/
def execRetireAll (head : RequestHead) (s : State) : Host.Outcome State Fault Refusal :=
  s.event (State.request (plainEntry 7 head))

/-- LOOKUP_GRANT (R171). -/
def execLookupGrant (head : RequestHead) (handle : Handle) (s : State) : Host.Outcome State Fault Refusal :=
  s.event (State.request (handleEntry 8 head handle))

/-- LOOKUP_SLOT (R172). -/
def execLookupSlot (head : RequestHead) (slot : BitVec 10) (s : State) : Host.Outcome State Fault Refusal :=
  s.event (State.request (lookupSlotEntry head slot))

/-- LOOKUP_STATION (R173). -/
def execLookupStation (head : RequestHead) (s : State) : Host.Outcome State Fault Refusal :=
  s.event (State.request (plainEntry 10 head))

/-- LIST_SLOTS (R174). -/
def execListSlots (head : RequestHead) (handle : Handle) (start : BitVec 10) (plan : Bool) (s : State) :
    Host.Outcome State Fault Refusal :=
  s.event (State.request (listSlotsEntry head handle start plan))

/-- CENSUS (R175). -/
def execCensus (head : RequestHead) (s : State) : Host.Outcome State Fault Refusal :=
  s.event (State.request (plainEntry 12 head))

/-- UNKNOWN_OP (R165): a request with this op code. A code of 1 to 12 is no unknown op and is served as its op
(assumption log 18). -/
def execUnknownOp (head : RequestHead) (op : BitVec 4) (s : State) : Host.Outcome State Fault Refusal :=
  s.event (State.request (plainEntry op head))

end Sys2Proof.Machine
end

