-- ==== Sys2Proof/Machine/ResetCommands.lean ====
section
/-! DEFINITION. The meanings of DEVICE_RESET and RESET_RELEASE (R2, R12, R187). -/

namespace Sys2Proof.Machine

/-- DEVICE_RESET: the frame is abandoned and every block returns to its reset values while RESETn is held LOW (R12,
R187). The commands that wait are not the part's and stay (assumption log 23). -/
def execDeviceReset (s : State) : Host.Outcome State Fault Refusal :=
  .next { State.reset with inReset := true, pending := s.pending }

/-- RESET_RELEASE: RESETn goes HIGH, FLEN[1:0] is sampled into the frame length code, and every block holds its reset
values (R2, R187). With RESETn already HIGH there is no release. -/
def execResetRelease (flen : BitVec 2) (s : State) : Host.Outcome State Fault Refusal :=
  .next (if s.inReset then
    { State.reset with timer := { State.reset.timer with code := .ofBits flen }, pending := s.pending }
  else s)

end Sys2Proof.Machine
end

