-- ==== Sys2Proof/Machine/UplinkCommands.lean ====
section
/-! DEFINITION. The meanings of the uplink words: each is the slot event of the uplink slot in progress, whose sense is
ONE and whose word is the one given (R118 to R130; assumption log 11). -/

namespace Sys2Proof.Machine

/-- KEEP (R130). -/
def execKeep (ack : BitVec 4) (s : State) : Host.Outcome State Fault Refusal :=
  s.event (State.uplinkWordEvent (uplinkWord ack .keep))

/-- JOIN (R102, R105). -/
def execJoin (ack : BitVec 4) (s : State) : Host.Outcome State Fault Refusal :=
  s.event (State.uplinkWordEvent (uplinkWord ack .join))

/-- ASK (R126, R127). -/
def execAsk (ack : BitVec 4) (fields : AskFields) (s : State) : Host.Outcome State Fault Refusal :=
  s.event (State.uplinkWordEvent (uplinkWord ack (.ask fields)))

/-- DROP (R128). -/
def execDrop (ack : BitVec 4) (handle : Handle) (s : State) : Host.Outcome State Fault Refusal :=
  s.event (State.uplinkWordEvent (uplinkWord ack (.drop handle)))

/-- RENEW_WORD (R129): the uplink word RENEW. -/
def execRenewWord (ack : BitVec 4) (handle : Handle) (leaseCode : BitVec 4) (s : State) :
    Host.Outcome State Fault Refusal :=
  s.event (State.uplinkWordEvent (uplinkWord ack (.renew handle leaseCode)))

/-- LEAVE (R105). -/
def execLeave (ack : BitVec 4) (s : State) : Host.Outcome State Fault Refusal :=
  s.event (State.uplinkWordEvent (uplinkWord ack .leave))

end Sys2Proof.Machine
end

