-- ==== Sys2Proof/Machine/Dispatch.lean ====
section
/-! DEFINITION. One arm for each command. -/

namespace Sys2Proof.Machine

def exec (i : Instr) (s : State) : Host.Outcome State Fault Refusal :=
  match i with
  | .deviceReset => Sys2Proof.Machine.execDeviceReset s
  | .resetRelease flen => Sys2Proof.Machine.execResetRelease flen s
  | .highwayStart => Sys2Proof.Machine.execHighwayStart s
  | .frameStart => Sys2Proof.Machine.execFrameStart s
  | .departureComplete station => Sys2Proof.Machine.execDepartureComplete station s
  | .slotEvent act hsd => Sys2Proof.Machine.execSlotEvent act hsd s
  | .keep ack => Sys2Proof.Machine.execKeep ack s
  | .join ack => Sys2Proof.Machine.execJoin ack s
  | .ask ack fields => Sys2Proof.Machine.execAsk ack fields s
  | .drop ack handle => Sys2Proof.Machine.execDrop ack handle s
  | .renewWord ack handle leaseCode => Sys2Proof.Machine.execRenewWord ack handle leaseCode s
  | .leave ack => Sys2Proof.Machine.execLeave ack s
  | .downlinkArbitration => Sys2Proof.Machine.execDownlinkArbitration s
  | .frameEnd => Sys2Proof.Machine.execFrameEnd s
  | .taintExpired slot => Sys2Proof.Machine.execTaintExpired slot s
  | .retryCountdownExpired station => Sys2Proof.Machine.execRetryCountdownExpired station s
  | .strayHoldoffExpired station => Sys2Proof.Machine.execStrayHoldoffExpired station s
  | .leaseTick => Sys2Proof.Machine.execLeaseTick s
  | .leaseExpired index => Sys2Proof.Machine.execLeaseExpired index s
  | .placementTake => Sys2Proof.Machine.execPlacementTake s
  | .commitPoint => Sys2Proof.Machine.execCommitPoint s
  | .create head fields => Sys2Proof.Machine.execCreate head fields s
  | .resize head handle count => Sys2Proof.Machine.execResize head handle count s
  | .release head handle => Sys2Proof.Machine.execRelease head handle s
  | .renew head handle given lease => Sys2Proof.Machine.execRenew head handle given lease s
  | .setStation head quota maxClass barred => Sys2Proof.Machine.execSetStation head quota maxClass barred s
  | .evict head => Sys2Proof.Machine.execEvict head s
  | .retireAll head => Sys2Proof.Machine.execRetireAll head s
  | .lookupGrant head handle => Sys2Proof.Machine.execLookupGrant head handle s
  | .lookupSlot head slot => Sys2Proof.Machine.execLookupSlot head slot s
  | .lookupStation head => Sys2Proof.Machine.execLookupStation head s
  | .listSlots head handle start plan => Sys2Proof.Machine.execListSlots head handle start plan s
  | .census head => Sys2Proof.Machine.execCensus head s
  | .unknownOp head op => Sys2Proof.Machine.execUnknownOp head op s
  | .rqpost data => Sys2Proof.Machine.execRqpost data s
  | .rspop data => Sys2Proof.Machine.execRspop data s
  | .runRequest => Sys2Proof.Machine.execRunRequest s
  | .stopRequest => Sys2Proof.Machine.execStopRequest s
  | .frameLengthWrite data => Sys2Proof.Machine.execFrameLengthWrite data s
  | .epochLeadWrite data => Sys2Proof.Machine.execEpochLeadWrite data s
  | .presenceLimitsWrite data => Sys2Proof.Machine.execPresenceLimitsWrite data s
  | .noticeTimingWrite data => Sys2Proof.Machine.execNoticeTimingWrite data s
  | .faultLimitWrite data => Sys2Proof.Machine.execFaultLimitWrite data s
  | .intrusionCountWrite data => Sys2Proof.Machine.execIntrusionCountWrite data s
  | .intFlagsRead => Sys2Proof.Machine.execIntFlagsRead s
  | .intFlagsWrite data => Sys2Proof.Machine.execIntFlagsWrite data s
  | .intEnableWrite data => Sys2Proof.Machine.execIntEnableWrite data s
  | .registerWrite addr data => Sys2Proof.Machine.execRegisterWrite addr data s

end Sys2Proof.Machine
end

