-- ==== Sys2Proof/Machine/Pins.lean ====
section
/-! DEFINITION. The output pins as functions of the state (R13, R15, R178, R186, R188; assumption log 13). -/

namespace Sys2Proof.Machine

/-- HFS in bit period `b`, 0..31, of the slot in progress: HIGH for the first of slot 0 (R9, R188). -/
def State.hfs (b : Nat) (s : State) : Bool := s.timer.currentSlot == some 0 && b == 0

/-- The word the controller drives on HSD in the slot in progress; none where HSD is high-impedance (R13, R147, R188). -/
def State.hsdWord (s : State) : Option Word :=
  match s.timer.currentSlot with
  | none => none
  | some n =>
    match slotClass n with
    | .sync => some (syncWord s.timer.code s.timer.fn)
    | .uplink => none
    | .downlink => some (s.downlink.getD (n - 48) fillerWord)
    | .payload => none

/-- HSD in bit period `b`, most significant bit first; none where high-impedance (R1, R188). -/
def State.hsd (b : Nat) (s : State) : Option Bool := s.hsdWord.map (fun w => w.getMsbD b)

/-- TALK[7:0] in the slot in progress (R15, R190). -/
def State.talk (s : State) : BitVec 8 :=
  match s.timer.currentSlot with
  | none => 0xFF
  | some n => if slotClass n = .payload then talkCode (s.activeAt n) else 0xFF

/-- IRQn, released HIGH (true) or pulled LOW (R186). A take that is due is made at once (R59), so that a flag it sets
shows (assumption log 9). -/
def State.irqn (s : State) : Bool := s.inReset || !s.catchUp.ints.asserted

/-- The access sampled since CSn and its strobe went LOW: none yet, a read or a write (R178). -/
inductive Sampled where
  | none | read | write
  deriving DecidableEq, Repr

/-- RDYn for these levels of CSn, RDn and WRn and this sample; none where it is not driven (R178, R187, R188). Once an
access is sampled, RDYn follows its own strobe alone, whatever the other strobe does (R188; the model's choice between
R188 and R178's "CSn LOW with RDn and WRn both LOW is not an access", DESIGN CHOICE, assumption log 24; safe). -/
def State.rdyn (csn rdn wrn : Bool) (sampled : Sampled) (s : State) : Option Bool :=
  if s.inReset || csn then .none
  else
    match sampled with
    | .read => some rdn
    | .write => some wrn
    | .none => if !rdn && !wrn then .none else some true

/-- Whether D[31:0] is driven: in a read, from the sample until CSn or RDn returns HIGH (R178, R187, R188). -/
def State.dataDriven (csn rdn : Bool) (sampled : Sampled) (s : State) : Bool :=
  !s.inReset && !csn && !rdn && sampled == .read

end Sys2Proof.Machine
end

