-- ==== Sys2Proof/Safety.lean ====
section
/-! DEFINITION. What the claims speak of: a completed step, the limits of the queues, the legal values of the
configuration registers, the canonical form of every table, the maps and lists of R35 and R40, and the words in which the
claims say where a command meets its event and what it leaves. -/

namespace Sys2Proof.Machine

/-- A step is safe when it answers a next state: no command stops the part (INVENTORY.md, Faults). -/
def Completes (o : Host.Outcome State Fault Refusal) : Prop := ∃ t, o = .next t

/-- The request queue holds at most 16 entries and the result queue at most 32, and a request is in progress only while
a result entry is free (R162, R164). -/
def Port.bounded (p : Port) : Prop :=
  p.requests.length ≤ Config.requestLimit ∧ p.results.length ≤ Config.resultLimit
    ∧ (p.inProgress.isSome = true → p.results.length < Config.resultLimit)

/-- Every station's notice queue holds at most 8 notices (R135). -/
def State.noticesBounded (s : State) : Prop := ∀ a, (s.mailbox a).queue.length ≤ Config.noticeLimit

/-- The values that the acceptance rules allow (R54, R101, R148, R159). -/
def Registers.legal (c : Registers) : Prop :=
  (c.epochLead.toNat % 2 = 0 ∧ 4 ≤ c.epochLead.toNat) ∧ (1 ≤ c.quietAfter.toNat ∧ c.quietAfter.toNat < c.lostAfter.toNat)
    ∧ (1 ≤ c.retryInterval.toNat ∧ 1 ≤ c.sendLimit.toNat) ∧ 1 ≤ c.faultLimit.toNat

/-- The changes of a pending list are canonical, none where no epoch is pending. -/
def changesWf (e : Option Epoch) : Prop := ∀ x, e = some x → x.changes.wf none = true

/-- Every table is in canonical form. -/
def State.canonical (s : State) : Prop :=
  (s.grants.wf (Grant.freeWith 0) = true ∧ s.stations.wf Station.fresh = true ∧ s.asks.wf AskRecord.fresh = true
      ∧ s.mailboxes.wf Mailbox.fresh = true)
    ∧ (s.map.active.wf none = true ∧ s.map.plan.wf none = true ∧ s.map.taint.wf 0 = true)
    ∧ changesWf s.map.openEpoch ∧ changesWf s.map.sealedEpoch

/-- The change that a pending list holds for slot `n`. -/
def changeAt (e : Option Epoch) (n : Nat) : Option Change := e.bind (fun x => x.changes.get none n)

/-- The owner of slot `n` after the SEALED list is applied to ACTIVE (R40). -/
def SlotMap.baseAt (m : SlotMap) (n : Nat) : Owner :=
  match changeAt m.sealedEpoch n with
  | some c => c.toOwner
  | none => m.active.get none n

/-- Slot `n` obeys R35 and R40: PLAN is ACTIVE with the SEALED list and then the OPEN list applied, and every change
waits against the owner it was recorded from. -/
def SlotMap.followsAt (m : SlotMap) (n : Nat) : Prop :=
  (∀ c, changeAt m.sealedEpoch n = some c → c.fromOwner = m.active.get none n)
    ∧ (∀ c, changeAt m.openEpoch n = some c →
        c.fromOwner = m.baseAt n ∧ c.toOwner = m.plan.get none n ∧ c.fromOwner ≠ c.toOwner)
    ∧ (changeAt m.openEpoch n = none → m.plan.get none n = m.baseAt n)

/-- The maps and the pending lists agree at every slot (R35, R40). -/
def SlotMap.follows (m : SlotMap) : Prop :=
  (∀ n, m.followsAt n) ∧ changesWf m.openEpoch ∧ changesWf m.sealedEpoch

/-- What R3 lets the Frame Timer hold: START is pending only while STOPPED, STOP only while RUNNING, and the slot in
progress is one of the frame. -/
def Timer.legal (t : Timer) : Prop :=
  (t.request = .start → t.timing = .stopped) ∧ (t.request = .stop → t.timing ≠ .stopped)
    ∧ ∀ n, t.timing = .running (.slot n) → n < t.code.slots

/-- What R57 lets a placement context hold: a count of 1..64; where slots are chosen, that many, ascending, none below 64,
and at most four victims. -/
def Context.legal (c : Context) : Prop :=
  (1 ≤ c.newCount ∧ c.newCount ≤ 64)
    ∧ ∀ t v, c.outcome = .chosen t v →
        t.length = c.newCount ∧ t.Pairwise (· < ·) ∧ (∀ n ∈ t, Config.firstPayload ≤ n) ∧ v.length ≤ Config.candidateLimit

/-- The placement in flight, if there is one, is legal (R57). -/
def Engine.legal (e : Engine) : Prop := ∀ c, e.context = some c → c.legal

/-- The words made up for a frame fill at most the sixteen downlink slots, and each carries odd parity (R147, R189). -/
def State.downlinkLegal (s : State) : Prop := s.downlink.length ≤ 16 ∧ ∀ w ∈ s.downlink, oddOnes w = true

/-- What every step keeps of the state outside the tables: the configuration registers, the Frame Timer, the port's
queues, the notice queues and the downlink words. -/
def State.legal (s : State) : Prop :=
  s.cfg.legal ∧ s.timer.legal ∧ s.port.bounded ∧ (s.noticesBounded ∧ s.mailboxes.wf Mailbox.fresh = true) ∧ s.downlinkLegal

/-! ## The books: what R19, R23, R25, R27, R108 and R115 say of the maps, the records, the queue and the Roster together -/

/-- planCount and activeCount are the numbers of payload slots that the two maps give the record (R19). -/
def State.countsHold (s : State) : Prop :=
  ∀ i, (s.grant i).planCount = (s.planSlots i).length ∧ (s.grant i).activeCount = (s.activeSlots i).length

/-- A map, or a pending list, names record `i` for slot `n` (R33, R40). -/
def SlotMap.namesAt (m : SlotMap) (n i : Nat) : Prop :=
  m.active.get none n = some i ∨ m.plan.get none n = some i
    ∨ ∃ c, (changeAt m.openEpoch n = some c ∨ changeAt m.sealedEpoch n = some c) ∧ c.names i = true

/-- Only payload slots are named, and only for records that are neither FREE nor PLACING (R25, R33). -/
def State.ownersInUse (s : State) : Prop :=
  ∀ n i, s.map.namesAt n i →
    n ∈ s.payload ∧ i < Config.grantCount ∧ (s.grant i).state ≠ .free ∧ (s.grant i).state ≠ .placing

/-- A record that is not FREE stands in the state that R23 derives for it; a FREE record has its FREE values (R17). -/
def State.statesDerived (s : State) : Prop :=
  ∀ i, ((s.grant i).state ≠ .free → i < Config.grantCount ∧ (s.grant i).state = s.derived i)
    ∧ ((s.grant i).state = .free → s.grant i = Grant.freeWith (s.grant i).generation)

/-- The Free Record Queue holds every FREE record exactly once and no other record (R27). -/
def State.freeQueueHolds (s : State) : Prop :=
  s.freeQueue.Nodup ∧ ∀ i, i ∈ s.freeQueue ↔ i < Config.grantCount ∧ (s.grant i).state = .free

/-- The records of station `a` that are not FREE. -/
def State.recordsOf (a : Nat) (s : State) : List Nat :=
  (List.range Config.grantCount).filter (fun i => (s.grant i).state != .free && (s.grant i).owner == some a)

/-- Held records is the number of the station's records, at most 16, and planned slots the sum of their planCounts (R108,
R115). -/
def State.rosterCounts (s : State) : Prop :=
  ∀ a, (s.station a).held = (s.recordsOf a).length ∧ (s.station a).held ≤ Config.grantLimit
    ∧ (s.station a).planned = ((s.recordsOf a).map (fun i => (s.grant i).planCount)).sum

/-- Every record that is not FREE has an owner that is MEMBER, QUIET or LEAVING (R108). -/
def State.ownersPresent (s : State) : Prop :=
  ∀ i, (s.grant i).state ≠ .free → ∃ a, (s.grant i).owner = some a
    ∧ ((s.station a).state = .member ∨ (s.station a).state = .quiet ∨ (s.station a).state = .leaving)

/-- The placement of a new grant holds a PLACING record of its station, and slots chosen for a grant that can still be
placed are payload slots (R57, R63). -/
def State.placementHolds (s : State) : Prop :=
  ∀ c, s.engine.context = some c →
    (∀ i, (∃ l, c.kind = .create i l) ∨ (∃ q l, c.kind = .ask i q l) →
        i < Config.grantCount ∧ (s.grant i).state = .placing ∧ (s.grant i).owner = some c.station)
      ∧ ∀ t v, c.outcome = .chosen t v → (∀ h, c.kind = .resize h → s.handlePasses h = true) → ∀ n ∈ t, n ∈ s.payload

/-- The maps, the records, the Free Record Queue, the Roster's counts and the placement in flight agree. -/
def State.booksAgree (s : State) : Prop :=
  s.map.follows ∧ s.countsHold ∧ s.ownersInUse ∧ s.statesDerived ∧ s.freeQueueHolds ∧ s.rosterCounts ∧ s.ownersPresent
    ∧ s.placementHolds

/-! ## Where a command meets its event -/

/-- RESETn is HIGH and the engine has no take to make (assumption logs 3 and 9). -/
def State.ready (s : State) : Prop := s.inReset = false ∧ s.takeDue = false

/-- RESETn is HIGH, and no take is due or the queue puts the take right after the command (assumption logs 5 and 9). -/
def State.readyOrBeforeTake (s : State) : Prop :=
  s.inReset = false ∧ (s.takeDue = false ∨ s.pending.head? = some .placementTake)

/-- Slot `n` is in progress. -/
def State.inSlot (n : Nat) (s : State) : Prop := s.timer.timing = .running (.slot n)

/-- Uplink slot `a` is in progress. -/
def State.inUplinkSlot (a : Nat) (s : State) : Prop := s.inSlot a ∧ 1 ≤ a ∧ a ≤ 47

/-- The frame end of frame FN is due (R11), of which these parts are taken (assumption log 8). -/
def State.endIsDue (taken : EndParts) (s : State) : Prop := s.timer.timing = .running (.endDue taken)

/-- A lease tick is due and not taken (R85): the frame end of a tick frame. -/
def State.tickIsDue (taken : EndParts) (s : State) : Prop :=
  s.endIsDue taken ∧ taken.leases = false ∧ s.timer.fn.toNat % 256 = 255

/-- No record but `i` is counted by a lease tick (R86). -/
def State.countedAlone (i : Nat) (s : State) : Prop :=
  ∀ j, j < Config.grantCount → j ≠ i → (s.grant j).state ≠ .live ∧ (s.grant j).state ≠ .shifting

/-- The port takes a request as it is posted: IDLE, none waiting, room for a result (R164). -/
def State.portFree (s : State) : Prop :=
  s.port.inProgress = none ∧ s.port.requests = [] ∧ s.port.results.length < Config.resultLimit

/-! ## What a command leaves -/

/-- Slot `n` has closed: the Frame Timer stands at what follows it (R10, R11, R143). -/
def State.pastSlot (n : Nat) (s : State) : State := s.goTo (s.timer.code.placeAfter n)

/-- Every nonzero taint count is one lower (R37). -/
def State.taintDecays (s t : State) : Prop := ∀ n, t.taintAt n = if s.taintAt n = 0 then 0 else s.taintAt n - 1

/-- Every nonzero stray hold-off is one lower, and every nonzero retry countdown of a JOINING or MEMBER station (R138,
R142); notices and sequences stay. -/
def State.noticesCountDown (s t : State) : Prop :=
  ∀ a, (t.mailbox a).holdoff = (s.mailbox a).holdoff - 1
    ∧ (t.mailbox a).queue = (s.mailbox a).queue ∧ (t.mailbox a).nextSeq = (s.mailbox a).nextSeq
    ∧ (t.mailbox a).head =
        (if (s.station a).state = .joining ∨ (s.station a).state = .member then
          { (s.mailbox a).head with countdown := (s.mailbox a).head.countdown - 1 }
        else (s.mailbox a).head)

/-- The notices in a station's queue, where it has room, are those it held with these after them (R136). -/
def State.queues (a : Nat) (new : List Notice) (s t : State) : Prop :=
  (s.station a).state.present = true → (s.mailbox a).queue.length + new.length ≤ Config.noticeLimit →
    (t.mailbox a).queue = (s.mailbox a).queue ++ new

/-- Idle ticks after the update of R90. -/
def Grant.idleAfter (g : Grant) : BitVec 8 := if g.usedThisTick then 0 else satInc g.idleTicks

/-- The notices that a lease tick from `s` to `t` queues for record `i`, where it is counted: LEASE_LOW where its lease
comes to LEASE_WARN (R88), and REVOKED where its lease comes to 0 or its idle ticks to IDLE_LIMIT (R89, R91). -/
def State.tickNotices (i : Nat) (s t : State) : List Notice :=
  let g := s.grant i
  if g.state = .live ∨ g.state = .shifting then
    (if g.leaseReload ≠ 0 ∧ s.cfg.leaseWarn ≠ 0 ∧ g.leaseWarned = false
        ∧ g.leaseRemaining - 1 = s.cfg.leaseWarn.setWidth 16 then
      [.leaseLow (s.handle i) (s.cfg.leaseWarn.setWidth 16)] else [])
      ++ (if g.leaseReload ≠ 0 ∧ g.leaseRemaining.toNat ≤ 1 then
          [.revoked (s.handle i) .expired (t.effectFor [i]).frame]
        else if s.cfg.idleLimit ≠ 0 ∧ s.cfg.idleLimit ≤ g.idleAfter then
          [.revoked (s.handle i) .idle (t.effectFor [i]).frame]
        else [])
  else []

/-- Station `a`'s slot was driven (R98). -/
def State.heard (a : Nat) (s : State) : State := s.updStation a (fun r => { r with missed := 0 })

/-- Request `e` was posted and taken, and `result` answers it: the staging words, the result queue, the RESULT flag, and
the suspension that RESUME clears (R161, R163, R165). -/
def State.answered (e result : Quad) (s : State) : State :=
  { s.clearSuspension e with
    port := { s.port with staging := e, results := s.port.results ++ [result] }
    ints := s.ints.raise .result }

/-- Word 0 of a result: op 3:0, status 7:4, records in use 15:8, tag 31:16 (R193). -/
def Quad.headed (q : Quad) (op : BitVec 4) (st : Status) (inUse : BitVec 8) (tag : BitVec 16) : Prop :=
  q.w0.extractLsb' 0 4 = op ∧ q.w0.extractLsb' 4 4 = st.code ∧ q.w0.extractLsb' 8 8 = inUse
    ∧ q.w0.extractLsb' 16 16 = tag

/-- The result of a status that is not OK: zeros in words 1 to 3 (R165, R193). -/
def Quad.refuses (q : Quad) (op : BitVec 4) (st : Status) (tag : BitVec 16) : Prop :=
  q.headed op st 0 tag ∧ q.w1 = 0 ∧ q.w2 = 0 ∧ q.w3 = 0

/-- The result of a placement or a release that is OK: the handle, the effective frame and its epoch (R193). -/
def Quad.places (q : Quad) (op : BitVec 4) (tag : BitVec 16) (h : Handle) (e : Effect) : Prop :=
  q.headed op .ok 0 tag ∧ q.w1 = handleWord h ∧ q.w2.extractLsb' 0 16 = e.frame ∧ q.w2.extractLsb' 16 16 = 0
    ∧ q.w3.extractLsb' 0 8 = e.epoch.getD 0 ∧ q.w3.getLsbD 8 = e.epoch.isSome ∧ q.w3.extractLsb' 9 23 = 0

/-- Grant `i` can be retired, and its planCount is the number of its PLAN slots (R19, R45). -/
def State.canRetire (i : Nat) (s : State) : Prop :=
  i < Config.grantCount ∧ (s.grant i).state.retirable = true ∧ (s.grant i).planCount = (s.planSlots i).length

/-- What a retire claim on grant `i` leaves (R45): its PLAN slots FREE, every other entry of PLAN, and ACTIVE, taint and
the SEALED epoch, as they were; the record DRAINING, or freed with the next generation; every other record as it was. -/
def State.retiredTo (i : Nat) (s t : State) : Prop :=
  (∀ n, t.planAt n = if n ∈ s.planSlots i then none else s.planAt n)
    ∧ (t.map.active = s.map.active ∧ t.map.taint = s.map.taint ∧ t.map.sealedEpoch = s.map.sealedEpoch)
    ∧ (((t.grant i).state = .draining ∧ (t.grant i).planCount = 0 ∧ (t.grant i).generation = (s.grant i).generation
          ∧ t.freeQueue = s.freeQueue)
        ∨ (t.grant i = Grant.freeWith ((s.grant i).generation + 1) ∧ t.freeQueue = s.freeQueue ++ [i]))
    ∧ (∀ j, j ≠ i → t.grant j = s.grant j) ∧ t.commitCounter = s.commitCounter

/-- Record `i` is PLACING for this placement and in no map (R18). -/
def State.placesNew (c : Context) (i : Nat) (s : State) : Prop :=
  i < Config.grantCount ∧ (s.grant i).state = .placing ∧ (s.grant i).owner = some c.station
    ∧ (s.grant i).planCount = 0 ∧ (s.grant i).activeCount = 0 ∧ ∀ n, s.planAt n ≠ some i

/-- The change that a list holds for a slot once (x→y) is recorded against the change it held (R42). -/
def mergedChange (held : Option Change) (x y : Owner) : Option Change :=
  match held with
  | none => some { fromOwner := x, toOwner := y }
  | some c => if c.fromOwner = y then none else some { c with toOwner := y }

/-- The epoch that a claim's changes join: the OPEN one, else one opened with S and E reckoned from N (R38, R39). -/
def State.joins (s : State) (o : Epoch) : Prop :=
  match s.map.openEpoch with
  | some p => o.number = p.number ∧ o.sealFrame = p.sealFrame ∧ o.effective = p.effective
  | none => o.number = s.map.epochCounter + 1
      ∧ o.sealFrame = s.timer.nextFrame + s.cfg.epochLead.setWidth 16 / 2
      ∧ o.effective = s.timer.nextFrame + s.cfg.epochLead.setWidth 16

/-- What the commit of a new grant without victims leaves (R20, R39, R42, R47, R80): PLAN gives the record the slots and
keeps every other entry; the counter advances and dates the record, PENDING, with this lease; the OPEN list carries the
changes; the station's planned slots grow. -/
def State.committedTo (c : Context) (i : Nat) (reload : BitVec 16) (slots : List Nat) (s t : State) : Prop :=
  (∀ n, t.planAt n = if n ∈ slots then some i else s.planAt n) ∧ t.map.active = s.map.active
    ∧ t.map.taint = s.map.taint ∧ t.map.sealedEpoch = s.map.sealedEpoch
    ∧ t.commitCounter = s.commitCounter + 1
    ∧ t.grant i = { s.grant i with
        state := .pending, planCount := slots.length, commitSeq := s.commitCounter + 1, leaseReload := reload
        leaseRemaining := reload, leaseWarned := false, idleTicks := 0 }
    ∧ (∀ j, j ≠ i → t.grant j = s.grant j) ∧ t.freeQueue = s.freeQueue
    ∧ t.station c.station = { s.station c.station with planned := (s.station c.station).planned + slots.length }
    ∧ (∀ a, a ≠ c.station → t.station a = s.station a)
    ∧ (∃ o, t.map.openEpoch = some o ∧ s.joins o ∧ ∀ n, changeAt (some o) n =
        if n ∈ slots then mergedChange (changeAt s.map.openEpoch n) none (some i) else changeAt s.map.openEpoch n)
    ∧ t.engine = { s.engine with context := none }

/-- What a placement of a new grant that ends without a commit leaves (R29, R77, R79): the record at the head of the Free
Record Queue with its generation, the station holding one record fewer, PLAN, the epochs and the counter as they were. -/
def State.recordReturned (c : Context) (i : Nat) (s t : State) : Prop :=
  t.engine = { s.engine with context := none }
    ∧ t.freeQueue = i :: s.freeQueue ∧ t.grant i = Grant.freeWith (s.grant i).generation
    ∧ (∀ j, j ≠ i → t.grant j = s.grant j)
    ∧ (t.station c.station).held = (s.station c.station).held - 1
    ∧ ((s.station c.station).state = .leaving → (s.station c.station).held ≤ 1 → (t.station c.station).state = .absent)
    ∧ (((s.station c.station).state ≠ .leaving ∨ 2 ≤ (s.station c.station).held) →
        (t.station c.station).state = (s.station c.station).state)
    ∧ (∀ a, a ≠ c.station → t.station a = s.station a ∧ t.mailbox a = s.mailbox a ∧ t.ask a = s.ask a)
    ∧ t.map = s.map ∧ t.commitCounter = s.commitCounter ∧ t.askQueue = s.askQueue ∧ t.timer = s.timer

/-- What a retirement leaves of a record (R45): DRAINING with nothing in PLAN, or freed with the next generation, which is
only where ACTIVE gives it nothing. -/
def State.drainsOrFrees (i : Nat) (s t : State) : Prop :=
  ((t.grant i).state = .draining ∧ (t.grant i).planCount = 0 ∧ (t.grant i).generation = (s.grant i).generation
      ∧ (t.grant i).activeCount = (s.grant i).activeCount)
    ∨ (t.grant i = Grant.freeWith ((s.grant i).generation + 1) ∧ (s.grant i).activeCount = 0)

/-- Every block at its reset values, with the frame length code, the registers and the flags (R3, R32, R56, R57, R117,
R132, R150, R151, R177, R179, R184, R186). -/
def State.holdsReset (code : LengthCode) (t : State) : Prop :=
  t.timer = { timing := .stopped, request := .none, fn := 0, code }
    ∧ ((∀ i, t.grant i = Grant.freeWith 0) ∧ t.freeQueue = List.range 240 ∧ t.commitCounter = 0)
    ∧ ((∀ n, t.activeAt n = none ∧ t.planAt n = none ∧ t.taintAt n = 0) ∧ t.map.openEpoch = none
        ∧ t.map.sealedEpoch = none ∧ t.map.epochCounter = 0)
    ∧ t.engine = { context := none, lastKind := .uplink }
    ∧ ((∀ a, t.station a = Station.fresh ∧ t.ask a = AskRecord.fresh ∧ t.mailbox a = Mailbox.fresh)
        ∧ t.askQueue = [] ∧ t.arbiterPointer = 47)
    ∧ (t.intrusions = 0 ∧ t.ints = { flags := 0, fresh := 0, enable := 0 })
    ∧ t.port = { staging := ⟨0, 0, 0, 0⟩, requests := [], results := [], inProgress := none }
    ∧ (t.registerRead 0x06 = 16 ∧ t.registerRead 0x07 = 0x2004 ∧ t.registerRead 0x08 = 0x804 ∧ t.registerRead 0x09 = 8
        ∧ t.registerRead 0x0A = 0 ∧ t.registerRead 0x0B = 8 ∧ t.registerRead 0x0C = 64 ∧ t.registerRead 0x0D = 3
        ∧ (∀ k : Nat, 1 ≤ k → k ≤ 15 → t.registerRead (BitVec.ofNat 6 (0x10 + k)) = BitVec.ofNat 32 (64 * k)))

/-- The command that stands for an uplink word with this ack and body (R118). -/
def UplinkBody.command (ack : BitVec 4) : UplinkBody → Instr
  | .keep => .keep ack
  | .join => .join ack
  | .ask f => .ask ack f
  | .drop h => .drop ack h
  | .renew h code => .renewWord ack h code
  | .leave => .leave ack

end Sys2Proof.Machine
end

