-- ==== Sys2Proof/Certificates/Slice0/Obligations.lean ====
section
/-! DEFINITION. The statements for the provers. `State.ready` (Safety.lean) says that RESETn is HIGH and no take of the
engine is due: every command but a reset and PLACEMENT_TAKE is stated there, and DueTakesComeFirst carries it to every
other state. An equality with a next state says what the command does and that it leaves everything else as it was. -/

open Sys2Proof Sys2Proof.Machine

/-! ## The step -/

/-- A step runs the command at the front of the queue on the state with the queue's rest. On an empty queue the part
idles (the model's choice, log 4). -/
def Obligations.StepRunsTheFrontCommand : Prop :=
  (∀ (c : Instr) (rest : List Instr) (s : State),
    step { s with pending := c :: rest } = exec c { s with pending := rest })
    ∧ (∀ s : State, s.pending = [] → step s = .next s)

/-- Every command answers a next state, and leaves the queue of commands to the step. -/
def Obligations.EveryCommandCompletes : Prop :=
  ∀ (c : Instr) (s : State), ∃ t, exec c s = .next t ∧ t.pending = s.pending

/-- "Whenever the engine is IDLE and work waits, the engine takes one item at once": takes that are due come before any
other event, as PLACEMENT_TAKE would make them, until none is due (log 9). Where the queue puts PLACEMENT_TAKE right after
an event the two fall together and the event comes first, as it would with a BUSY engine, unless it hands the engine
new work, which comes after the work already waiting (log 5). A commit point always follows the take. An ask that finds the
engine IDLE and no work waiting is taken in its own event (R122; AsksAreTakenByTheirRow). -/
def Obligations.DueTakesComeFirst : Prop :=
  (∀ s : State, s.catchUp.takeDue = false)
    ∧ (∀ (c : Instr) (s : State), s.inReset = false → c ≠ .deviceReset → (∀ f, c ≠ .resetRelease f) →
      c ≠ .placementTake → s.pending.head? ≠ some .placementTake ∨ c = .commitPoint →
        exec c s = exec c s.catchUp
          ∧ ∃ t, exec .placementTake s = .next t ∧ exec c t = exec c s ∧ (s.takeDue = false → t = s))
    ∧ ∀ (c : Instr) (s : State) (x : Context), s.inReset = false → s.pending.head? = some .placementTake →
      c ≠ .deviceReset → (∀ f, c ≠ .resetRelease f) → c ≠ .placementTake → c ≠ .commitPoint →
        ∃ u, exec c { s with engine := { s.engine with context := some x } } = .next u
          ∧ (s.broughtWork u = false → exec c s = .next { u with engine := s.engine })
          ∧ (s.broughtWork u = true → exec c s = exec c s.catchUp)

/-! ## The Frame Timer -/

/-- DEVICE_RESET: every block at its reset values, RESETn held LOW, the highway outputs and IRQn as R12 and R187 hold
them; the frame length code shown until the release is 0, the model's choice (log 1). While RESETn is LOW no other
command but the release does anything (log 3). RESET_RELEASE: the straps give the frame length code, 11 as 10, and every
block holds its reset values; with RESETn HIGH it is no event and changes nothing (log 2). -/
def Obligations.TheDeviceReset : Prop :=
  (∀ s : State, ∃ t, exec .deviceReset s = .next t ∧ t.inReset = true ∧ t.holdsReset .l256 ∧ t.pending = s.pending
    ∧ t.irqn = true ∧ t.talk = 0xFF ∧ t.hsdWord = none ∧ ∀ b, t.hfs b = false)
    ∧ (∀ (c : Instr) (s : State), s.inReset = true → c ≠ .deviceReset → (∀ f, c ≠ .resetRelease f) → exec c s = .next s)
    ∧ (∀ (flen : BitVec 2) (s : State),
    (s.inReset = true → ∃ t, exec (.resetRelease flen) s = .next t ∧ t.inReset = false ∧ t.pending = s.pending
        ∧ t.holdsReset (if flen = 0 then .l256 else if flen = 1 then .l512 else .l1024)
        ∧ t.registerRead 0x05 = (if flen = 0 then 0 else if flen = 1 then 1 else 2))
      ∧ (s.inReset = false → exec (.resetRelease flen) s = .next s))

/-- R5: a write of RUN is a run or a stop request; the four rows of those requests, and what a read of RUN returns in
each. The frame number and all else stay, and a start leaves the frame number at which the highway stopped. -/
def Obligations.RunAndStopRequests : Prop :=
  (∀ (s : State) (w : Word),
      exec (.registerWrite 0x01 w) s = if w.getLsbD 0 then exec .runRequest s else exec .stopRequest s)
    ∧ (∀ s : State, s.ready → s.timer.timing = .stopped → s.timer.request = .start →
      ∃ t, exec .highwayStart s = .next t ∧ t.timer.fn = s.timer.fn)
    ∧ ∀ s : State, s.ready →
    (s.timer.timing = .stopped → s.timer.request = .none →
        exec .runRequest s = .next { s with timer := { s.timer with request := .start } }
          ∧ exec .stopRequest s = .next s ∧ s.registerRead 0x01 = 0)
      ∧ (s.timer.timing = .stopped → s.timer.request = .start →
        exec .runRequest s = .next s
          ∧ exec .stopRequest s = .next { s with timer := { s.timer with request := .none } } ∧ s.registerRead 0x01 = 1)
      ∧ (∀ p, s.timer.timing = .running p → s.timer.request = .none →
        exec .runRequest s = .next s
          ∧ exec .stopRequest s = .next { s with timer := { s.timer with request := .stop } } ∧ s.registerRead 0x01 = 1)
      ∧ (∀ p, s.timer.timing = .running p → s.timer.request = .stop →
        exec .runRequest s = .next { s with timer := { s.timer with request := .none } }
          ∧ exec .stopRequest s = .next s ∧ s.registerRead 0x01 = 0)

/-- HIGHWAY_START (R6) and FRAME_START (R9) where no epoch swaps or seals: slot 0 of frame FN begins and nothing else
changes. HIGHWAY_START without a pending START, and FRAME_START where none is due, change nothing (log 2).
Where the OPEN epoch's S is FN it becomes SEALED with its list, number and E, and nothing else changes (R50).
HIGHWAY_START is in every case the frame start of the frame FN held while STOPPED. FRAME_START at an edge where a frame end
is due comes after it (log 7). -/
def Obligations.FramesStart : Prop :=
  (∀ s : State, s.ready →
    ((∀ e, s.map.sealedEpoch = some e → e.effective ≠ s.timer.fn) →
      (∀ e, s.map.openEpoch = some e → e.sealFrame ≠ s.timer.fn) →
        (s.timer.timing = .stopped → s.timer.request = .start →
          exec .highwayStart s = .next { s with timer := { s.timer with timing := .running (.slot 0), request := .none } })
        ∧ (s.timer.timing = .running .startDue →
          exec .frameStart s = .next { s with timer := { s.timer with timing := .running (.slot 0) } }))
      ∧ ((s.timer.timing ≠ .stopped ∨ s.timer.request ≠ .start) → exec .highwayStart s = .next s)
      ∧ (s.timer.timing ≠ .running .startDue → (∀ k, ¬ s.endIsDue k) → exec .frameStart s = .next s)
      ∧ (∀ k, s.endIsDue k → ∃ t, exec .frameEnd s = .next t ∧ exec .frameStart s = exec .frameStart t))
    ∧ (∀ (s : State) (e : Epoch), s.ready → s.map.sealedEpoch = none → s.map.openEpoch = some e → e.sealFrame = s.timer.fn →
    (s.timer.timing = .running .startDue → exec .frameStart s =
        .next { s with timer := { s.timer with timing := .running (.slot 0) }
                       map := { s.map with sealedEpoch := some e, openEpoch := none } })
      ∧ (s.timer.timing = .stopped → s.timer.request = .start → exec .highwayStart s =
        .next { s with timer := { s.timer with timing := .running (.slot 0), request := .none }
                       map := { s.map with sealedEpoch := some e, openEpoch := none } }))
    ∧ (∀ s : State, s.ready → s.timer.timing = .stopped → s.timer.request = .start →
      exec .highwayStart s =
        exec .frameStart { s with timer := { s.timer with timing := .running .startDue, request := .none } })

/-- R19, R25, R26, R49, R108: at the frame start of its E a SEALED epoch swaps. ACTIVE takes every change and keeps every
other entry, PLAN and taint stay, the epoch is gone, and EPOCH is set and fresh. A record that the list does not name is
as it was. One that it names is freed where nothing is left in PLAN or ACTIVE and the OPEN list does not name it: the
next generation, its index at the queue's tail in ascending order, its station holding one record fewer and, LEAVING,
ABSENT with the last. Any other stands in the state that R23 derives, its activeCount the number of its slots. The list
is one that R40 allows. -/
def Obligations.FrameStartSwaps : Prop :=
  ∀ (s : State) (e : Epoch), s.ready → s.timer.timing = .running .startDue → s.map.sealedEpoch = some e →
    e.effective = s.timer.fn → e.changes.wf none = true →
    (∀ n c, e.changes.get none n = some c → n ∈ s.payload ∧ c.fromOwner = s.activeAt n) →
      ∃ t, exec .frameStart s = .next t
        ∧ (∀ n, t.activeAt n = match e.changes.get none n with
            | some c => c.toOwner
            | none => s.activeAt n)
        ∧ (t.map.plan = s.map.plan ∧ t.map.taint = s.map.taint ∧ t.map.epochCounter = s.map.epochCounter)
        ∧ (if s.map.openEpoch.any (fun o => decide (o.sealFrame = s.timer.fn)) then
            t.map.sealedEpoch = s.map.openEpoch ∧ t.map.openEpoch = none
          else t.map.sealedEpoch = none ∧ t.map.openEpoch = s.map.openEpoch)
        ∧ t.ints.isSet .epoch = true ∧ t.ints.isFresh .epoch = true
        ∧ (∀ i, e.names i = false → t.grant i = s.grant i)
        ∧ (∀ i, i < 240 → e.names i = true → (s.grant i).state ≠ .free → (s.grant i).state ≠ .placing →
            (s.grant i).activeCount = (s.activeSlots i).length →
            if (s.grant i).planCount = 0 ∧ t.activeSlots i = []
                ∧ s.map.openEpoch.any (fun o => o.names i) = false then
              t.grant i = Grant.freeWith ((s.grant i).generation + 1)
            else t.grant i = { s.grant i with state := t.derived i, activeCount := (t.activeSlots i).length })
        ∧ (∀ freed, freed = (List.range 240).filter (fun i => (s.grant i).state != .free && (t.grant i).state == .free) →
          t.freeQueue = s.freeQueue ++ freed
            ∧ ∀ a k, k = freed.countP (fun i => (s.grant i).owner == some a) →
              (t.station a).held = (s.station a).held - k
                ∧ (k ≠ 0 → (s.station a).state = .leaving → (t.station a).held = 0 → (t.station a).state = .absent)
                ∧ (k = 0 ∨ (s.station a).state ≠ .leaving ∨ (t.station a).held ≠ 0 →
                    t.station a = { s.station a with held := (s.station a).held - k }))
        ∧ t.timer = { s.timer with timing := .running (.slot 0) }
        ∧ t.cfg = s.cfg ∧ t.engine = s.engine ∧ t.port = s.port ∧ t.commitCounter = s.commitCounter
        ∧ t.downlink = s.downlink ∧ t.intrusions = s.intrusions

/-- R1, R10, R11, R143: what follows each slot, and that nothing happens in a highway that is STOPPED (R8). A slot event
at an edge where a frame end, a frame start or the arbitration is due comes after it (log 7). -/
def Obligations.SlotsFollowInOrder : Prop :=
  (∀ (c : LengthCode) (n : Nat), n < c.slots → n ≠ 47 → n + 1 ≠ c.slots → c.placeAfter n = .slot (n + 1))
    ∧ (∀ c : LengthCode, c.placeAfter 47 = .arbitrationDue ∧ c.placeAfter (c.slots - 1) = .endDue .none)
    ∧ (LengthCode.l256.slots = 256 ∧ LengthCode.l512.slots = 512 ∧ LengthCode.l1024.slots = 1024)
    ∧ (∀ n, slotClass n = if n = 0 then .sync else if n ≤ 47 then .uplink else if n ≤ 63 then .downlink else .payload)
    ∧ (∀ s : State, s.ready → s.timer.timing = .stopped →
        (∀ act w, exec (.slotEvent act w) s = .next s) ∧ exec .downlinkArbitration s = .next s
          ∧ exec .frameEnd s = .next s ∧ exec .leaseTick s = .next s)
    ∧ ∀ (s : State) (act : BitVec 2) (w : Word), s.ready →
        (s.timer.timing = .running .startDue →
          ∃ t, exec .frameStart s = .next t ∧ exec (.slotEvent act w) s = exec (.slotEvent act w) t)
        ∧ (s.timer.timing = .running .arbitrationDue →
          ∃ t, exec .downlinkArbitration s = .next t ∧ exec (.slotEvent act w) s = exec (.slotEvent act w) t)
        ∧ (∀ k, s.endIsDue k →
          ∃ t, exec .frameEnd s = .next t ∧ exec (.slotEvent act w) s = exec (.slotEvent act w) t)

/-- The output pins. HFS is HIGH in the first bit period of slot 0 (R9). HSD carries, most significant bit first, the
sync word in slot 0 (R13, R190) and the words made up, else filler words, in slots 48 to 63 (R147), and is high-impedance
elsewhere. TALK names the grant that ACTIVE gives a payload slot, and 0xFF elsewhere (R15). IRQn shows a flag that a take
due at once sets (R59, R186, log 9). RDYn and D follow the access (R178, R187, R188); that the other strobe does not end
an access sampled is the model's choice (log 24). -/
def Obligations.OutputPins : Prop :=
  (∀ s : State, s.timer.timing = .stopped → (∀ b, s.hfs b = false ∧ s.hsd b = none) ∧ s.talk = 0xFF)
    ∧ (∀ (s : State) (n : Nat), s.inSlot n →
      (∀ b, s.hfs b = true ↔ n = 0 ∧ b = 0)
        ∧ (∀ b, s.hsd b = s.hsdWord.map (fun w => w.getMsbD b))
        ∧ (n = 0 → ∃ w, s.hsdWord = some w ∧ w.extractLsb' 0 16 = s.timer.fn
            ∧ w.extractLsb' 16 2 = s.timer.code.bits ∧ w.extractLsb' 18 13 = 0 ∧ oddOnes w = true)
        ∧ (48 ≤ n → n ≤ 63 → s.hsdWord = some (s.downlink.getD (n - 48) 0x80000000))
        ∧ ((1 ≤ n ∧ n ≤ 47) ∨ 64 ≤ n → s.hsdWord = none)
        ∧ (n ≤ 63 → s.talk = 0xFF)
        ∧ (64 ≤ n → s.activeAt n = none → s.talk = 0xFF)
        ∧ (∀ i, 64 ≤ n → s.activeAt n = some i → i < 240 → s.talk.toNat = i))
    ∧ (∀ s : State, s.inReset = false → s.irqn = s.catchUp.irqn)
    ∧ ∀ s : State,
      (∀ csn rdn wrn x, s.inReset = true ∨ csn = true → s.rdyn csn rdn wrn x = none ∧ s.dataDriven csn rdn x = false)
        ∧ (s.inReset = false →
          s.rdyn false false false .none = none
            ∧ (∀ rdn wrn, rdn = true ∨ wrn = true → s.rdyn false rdn wrn .none = some true)
            ∧ (∀ rdn wrn, s.rdyn false rdn wrn .read = some rdn ∧ s.rdyn false rdn wrn .write = some wrn)
            ∧ (∀ rdn x, s.dataDriven false rdn x = true ↔ rdn = false ∧ x = .read))

/-- R7, R11, R37, R138, R142: the frame end, its lease tick taken or not due (R85). The taint counts, the stray hold-offs
and the retry countdowns of JOINING and MEMBER stations go down by 1 where nonzero, but those already taken as a step of
their own (log 8); the next frame follows or, with STOP pending, the highway stops; nothing else changes. The lease tick
is part of the frame end (R85): with a tick due, a frame end is the tick's step, LEASE_TICK, which the model lets come as
one of its own (log 8), and then the rest. Where no tick is due LEASE_TICK, and where no frame end is due neither, does
anything (log 2). -/
def Obligations.FrameEndCountsDown : Prop :=
  (∀ (s : State) (p : EndParts), s.ready → s.endIsDue p → ¬ s.tickIsDue p →
    s.map.taint.wf 0 = true → s.mailboxes.wf Mailbox.fresh = true →
      ∃ t, exec .frameEnd s = .next t
        ∧ t.timer = (if s.timer.request = .stop then
              { s.timer with timing := .stopped, request := .none, fn := s.timer.fn + 1 }
            else { s.timer with timing := .running .startDue, fn := s.timer.fn + 1 })
        ∧ (p.taint = false → s.taintDecays t) ∧ (p.taint = true → t.map.taint = s.map.taint)
        ∧ (p.notices = false → s.noticesCountDown t) ∧ (p.notices = true → t.mailboxes = s.mailboxes)
        ∧ t = { s with timer := t.timer, map := { s.map with taint := t.map.taint }, mailboxes := t.mailboxes })
    ∧ (∀ (s : State) (p : EndParts), s.ready → s.tickIsDue p →
      ∃ u, exec .leaseTick s = .next u ∧ u.ready ∧ u.endIsDue { p with leases := true }
        ∧ exec .frameEnd u = exec .frameEnd s)
    ∧ (∀ s : State, s.ready → (∀ p, ¬ s.tickIsDue p) → exec .leaseTick s = .next s)
    ∧ (∀ s : State, s.ready → (∀ p, ¬ s.endIsDue p) → exec .frameEnd s = .next s)

/-- Parts of a frame end taken as steps of their own, each whole (log 8). TAINT_EXPIRED: where the slot's count stands at
1, every taint count goes down by 1 (R37). RETRY_COUNTDOWN_EXPIRED and STRAY_HOLDOFF_EXPIRED: where the one named stands
at 1, every hold-off and every countdown of a JOINING or MEMBER station does (R138, R142); a QUIET station's stands
still. The frame end then does what is left, to the same state. Where the count named does not reach 0, or the part is
taken, nothing changes (log 2). -/
def Obligations.CountsExpire : Prop :=
  ∀ (s : State) (p : EndParts), s.ready → s.endIsDue p → s.map.taint.wf 0 = true → s.mailboxes.wf Mailbox.fresh = true →
    (∀ slot : BitVec 10,
      (p.taint = false → s.taintAt slot.toNat = 1 → ∃ t, exec (.taintExpired slot) s = .next t
          ∧ s.taintDecays t ∧ t.taintAt slot.toNat = 0 ∧ t.endIsDue { p with taint := true }
          ∧ t = { s with timer := { s.timer with timing := t.timer.timing }, map := { s.map with taint := t.map.taint } }
          ∧ exec .frameEnd t = exec .frameEnd s)
        ∧ (p.taint = true ∨ s.taintAt slot.toNat ≠ 1 → exec (.taintExpired slot) s = .next s))
      ∧ (∀ (a : BitVec 6) (c : Instr) (due : Prop),
        (c = .retryCountdownExpired a ∧ (due ↔ (s.mailbox a.toNat).head.countdown = 1
            ∧ ((s.station a.toNat).state = .joining ∨ (s.station a.toNat).state = .member)))
          ∨ (c = .strayHoldoffExpired a ∧ (due ↔ (s.mailbox a.toNat).holdoff = 1)) →
        (p.notices = false → due → ∃ t, exec c s = .next t
            ∧ s.noticesCountDown t ∧ t.endIsDue { p with notices := true }
            ∧ t = { s with timer := { s.timer with timing := t.timer.timing }, mailboxes := t.mailboxes }
            ∧ exec .frameEnd t = exec .frameEnd s)
          ∧ (p.notices = true ∨ ¬ due → exec c s = .next s))

/-! ## Leases -/

/-- R86, R87, R88, R90, R91: the lease tick on a record that it does not retire. A record that is LIVE or SHIFTING counts
down, is warned where it comes to LEASE_WARN and was not warned, with LEASE_LOW for its owner, and its idle ticks move, to 0
where it was used; a record in any other state is left alone. (The notice of the one record: no other is counted.)
A tick over any number of counted records queues their notices for each station in ascending order of index, for one record
LEASE_LOW before REVOKED (R86, R88, R89, R91, R136). (PLAN follows ACTIVE, as PlanFollowsActive keeps it.) -/
def Obligations.LeaseTickCounts : Prop :=
  (∀ (s : State) (p : EndParts) (i : Nat), s.ready → s.tickIsDue p → i < 240 →
      ∃ t, exec .leaseTick s = .next t ∧ t.endIsDue { p with leases := true }
        ∧ ((s.grant i).state ≠ .live → (s.grant i).state ≠ .shifting → t.grant i = s.grant i)
        ∧ ((s.grant i).state = .live ∨ (s.grant i).state = .shifting →
            (s.grant i).leaseReload = 0 ∨ 2 ≤ (s.grant i).leaseRemaining.toNat →
            s.cfg.idleLimit = 0 ∨ (s.grant i).idleAfter < s.cfg.idleLimit →
            ∀ warned : Bool, warned = (!(s.grant i).leaseWarned && (s.grant i).leaseReload != 0 && s.cfg.leaseWarn != 0
              && (s.grant i).leaseRemaining - 1 == s.cfg.leaseWarn.setWidth 16) →
              t.grant i =
                { s.grant i with
                  leaseRemaining := if (s.grant i).leaseReload = 0 then (s.grant i).leaseRemaining
                    else (s.grant i).leaseRemaining - 1
                  leaseWarned := (s.grant i).leaseWarned || warned
                  idleTicks := if (s.grant i).usedThisTick then 0 else satInc (s.grant i).idleTicks
                  usedThisTick := false }
              ∧ (s.countedAlone i → ∀ a, (s.grant i).owner = some a →
                  s.queues a (if warned then [.leaseLow (s.handle i) (s.cfg.leaseWarn.setWidth 16)] else []) t)))
    ∧ ∀ (s : State) (p : EndParts), s.ready → s.tickIsDue p → s.map.follows →
      ∃ t, exec .leaseTick s = .next t ∧ ∀ a, s.queues a
        ((List.range 240).flatMap (fun i => if (s.grant i).owner = some a then s.tickNotices i t else [])) t

/-- R89, R95: the lease tick on a record whose lease it takes to 0. The grant is retired EXPIRED, and its idle fields
stay as they were. LEASE_EXPIRED of that record is the whole tick, as one event (log 8); of a record whose lease does not
reach 0 it changes nothing (log 2). (The rest of the state, and the notice: no other record is counted.) -/
def Obligations.LeaseExpires : Prop :=
  ∀ (s : State) (p : EndParts) (i : BitVec 8), s.ready → s.tickIsDue p → i.toNat < 240 →
    ((s.grant i.toNat).state = .live ∨ (s.grant i.toNat).state = .shifting → (s.grant i.toNat).leaseReload ≠ 0 →
      (s.grant i.toNat).leaseRemaining = 1 →
        exec (.leaseExpired i) s = exec .leaseTick s
          ∧ (s.canRetire i.toNat → (s.grant i.toNat).activeCount ≠ 0 →
            ∃ t, exec .leaseTick s = .next t ∧ t.endIsDue { p with leases := true }
              ∧ t.grant i.toNat = { s.grant i.toNat with state := .draining, planCount := 0, leaseRemaining := 0 }
              ∧ (∀ n ∈ s.planSlots i.toNat, t.planAt n = none)
              ∧ (s.countedAlone i.toNat → s.retiredTo i.toNat t
                ∧ ∀ a, (s.grant i.toNat).owner = some a →
                  s.queues a [.revoked (s.handle i.toNat) .expired (t.effectFor [i.toNat]).frame] t)))
      ∧ (((s.grant i.toNat).state ≠ .live ∧ (s.grant i.toNat).state ≠ .shifting) ∨ (s.grant i.toNat).leaseReload = 0
          ∨ (s.grant i.toNat).leaseRemaining ≠ 1 → exec (.leaseExpired i) s = .next s)

/-- R90, R91: a counted grant that its lease leaves, under a nonzero IDLE_LIMIT. Used since the last tick, its idle ticks
become 0 and it stands; else they go up by 1, and where they come to IDLE_LIMIT it is retired IDLE, its REVOKED notice after
any LEASE_LOW of the same tick. (The notices: no other record is counted; LeaseTickCounts has those of several.) -/
def Obligations.IdleGrantsAreReclaimed : Prop :=
  ∀ (s : State) (p : EndParts) (i : Nat), s.ready → s.tickIsDue p → s.canRetire i →
    (s.grant i).state = .live ∨ (s.grant i).state = .shifting →
    (s.grant i).leaseReload = 0 ∨ 2 ≤ (s.grant i).leaseRemaining.toNat → (s.grant i).activeCount ≠ 0 →
    s.cfg.idleLimit ≠ 0 →
      ∃ t, exec .leaseTick s = .next t ∧ (t.grant i).idleTicks = (s.grant i).idleAfter
        ∧ (t.grant i).usedThisTick = false
        ∧ ((s.grant i).usedThisTick = true → (t.grant i).idleTicks = 0)
        ∧ ((s.grant i).usedThisTick = false → (t.grant i).idleTicks = satInc (s.grant i).idleTicks)
        ∧ (s.cfg.idleLimit ≤ (s.grant i).idleAfter →
            (t.grant i).state = .draining ∧ (t.grant i).planCount = 0 ∧ (∀ n ∈ s.planSlots i, t.planAt n = none)
              ∧ (s.countedAlone i → ∀ a, (s.grant i).owner = some a →
                s.queues a ((if (t.grant i).leaseWarned && !(s.grant i).leaseWarned then
                    [.leaseLow (s.handle i) (s.cfg.leaseWarn.setWidth 16)] else [])
                  ++ [.revoked (s.handle i) .idle (t.effectFor [i]).frame]) t))
        ∧ ((s.grant i).idleAfter < s.cfg.idleLimit →
            (t.grant i).state = (s.grant i).state ∧ (t.grant i).planCount = (s.grant i).planCount)

/-! ## Slot policing -/

/-- R153, R154 below the limit: a payload slot whose ACTIVE entry names a grant. SILENT changes nothing, ONE marks the
grant as used, MANY charges it, saturating at 255; a DRAINING grant, and one below FAULT_LIMIT, draws nothing more. In a
payload slot that ACTIVE leaves FREE, and in the overhead slots 0 and 48 to 63, an intrusion is counted, saturating, and
sets INTRUSION (R156, R157); in a payload slot it taints the slot for TAINT_FRAMES, where that is nonzero. -/
def Obligations.SlotsArePoliced : Prop :=
  (∀ (s : State) (n i : Nat) (w : Word), s.ready → s.inSlot n → 64 ≤ n → s.activeAt n = some i →
    exec (.slotEvent 0 w) s = .next (s.pastSlot n)
      ∧ exec (.slotEvent 1 w) s = .next ((s.updGrant i (fun g => { g with usedThisTick := true })).pastSlot n)
      ∧ (((s.grant i).state ≠ .live ∧ (s.grant i).state ≠ .shifting) ∨ satInc (s.grant i).faultCount < s.cfg.faultLimit →
          ∀ act : BitVec 2, act = 2 ∨ act = 3 → exec (.slotEvent act w) s =
            .next ((s.updGrant i (fun g => { g with faultCount := satInc g.faultCount })).pastSlot n)))
    ∧ (∀ (s : State) (n : Nat) (w : Word), s.ready → s.inSlot n →
    (64 ≤ n → s.activeAt n = none →
        exec (.slotEvent 0 w) s = .next (s.pastSlot n)
          ∧ ∀ act : BitVec 2, act ≠ 0 → exec (.slotEvent act w) s = .next (State.pastSlot n
              { s with intrusions := satInc s.intrusions
                       ints := s.ints.raise .intrusion
                       map := if s.cfg.taintFrames = 0 then s.map
                         else { s.map with taint := s.map.taint.put 0 n s.cfg.taintFrames } }))
      ∧ (n = 0 ∨ (48 ≤ n ∧ n ≤ 63) →
        exec (.slotEvent 1 w) s = .next (s.pastSlot n)
          ∧ ∀ act : BitVec 2, act ≠ 1 → exec (.slotEvent act w) s = .next (State.pastSlot n
              { s with intrusions := satInc s.intrusions, ints := s.ints.raise .intrusion })))

/-- R154, R155: a MANY slot that brings a LIVE or SHIFTING grant to FAULT_LIMIT retires it FAULTED: the retire claim, the
REVOKED notice, FAULT, and the owner's suspension where suspend-on-fault is set. -/
def Obligations.FaultedGrantsAreRetired : Prop :=
  ∀ (s : State) (n i a : Nat) (w : Word) (act : BitVec 2), s.ready → s.inSlot n → 64 ≤ n → s.activeAt n = some i →
    act = 2 ∨ act = 3 → (s.grant i).state = .live ∨ (s.grant i).state = .shifting →
    s.cfg.faultLimit ≤ satInc (s.grant i).faultCount → s.canRetire i → (s.grant i).activeCount ≠ 0 →
    (s.grant i).owner = some a → (s.station a).state = .member ∨ (s.station a).state = .quiet →
      ∃ t, exec (.slotEvent act w) s = .next t ∧ t.timer = (s.pastSlot n).timer
        ∧ s.retiredTo i t ∧ (t.grant i).state = .draining
        ∧ (t.grant i).faultCount = satInc (s.grant i).faultCount
        ∧ t.ints.isSet .fault = true ∧ t.ints.isFresh .fault = true
        ∧ (t.station a).suspended = (s.cfg.suspendOnFault || (s.station a).suspended)
        ∧ (t.station a).state = (s.station a).state
        ∧ ((s.mailbox a).queue.length < 8 → (t.mailbox a).queue = (s.mailbox a).queue
            ++ [.revoked (s.handle i) .faulted (t.effectFor [i]).frame])

/-! ## Presence and clashes -/

/-- R98, R99: a SILENT uplink slot. In JOINING, MEMBER and QUIET missed goes up, held at 255; below the thresholds nothing
else happens, and a MEMBER station at QUIET_AFTER becomes QUIET. In ABSENT and LEAVING nothing happens.
At LOST_AFTER (R99, R104, R107) JOINING goes ABSENT, and MEMBER or QUIET goes LEAVING (or on to ABSENT where it holds no
record), reason LOST, its notice queue empty. -/
def Obligations.SilentUplinkSlots : Prop :=
  (∀ (s : State) (a : Nat) (w : Word), s.ready → s.inUplinkSlot a →
    ((s.station a).state = .absent ∨ (s.station a).state = .leaving → exec (.slotEvent 0 w) s = .next (s.pastSlot a))
      ∧ (satInc (s.station a).missed < s.cfg.lostAfter →
          ((s.station a).state = .joining ∨ (s.station a).state = .quiet
              ∨ ((s.station a).state = .member ∧ satInc (s.station a).missed < s.cfg.quietAfter) →
            exec (.slotEvent 0 w) s = .next ((s.updStation a (fun r => { r with missed := satInc r.missed })).pastSlot a))
          ∧ ((s.station a).state = .member → s.cfg.quietAfter ≤ satInc (s.station a).missed →
            ∃ t, exec (.slotEvent 0 w) s = .next t ∧ t.timer = (s.pastSlot a).timer
              ∧ t.station a = { s.station a with state := .quiet, missed := satInc (s.station a).missed }
              ∧ (∀ b, b ≠ a → t.station b = s.station b)
              ∧ t = { s with timer := t.timer, stations := t.stations, ints := s.ints.raise .station })))
    ∧ (∀ (s : State) (a : Nat) (w : Word), s.ready → s.inUplinkSlot a → s.cfg.lostAfter ≤ satInc (s.station a).missed →
    (s.station a).state ≠ .absent → (s.station a).state ≠ .leaving →
      ∃ t, exec (.slotEvent 0 w) s = .next t ∧ t.timer = (s.pastSlot a).timer
        ∧ ((s.station a).state = .joining → (t.station a).state = .absent)
        ∧ ((s.station a).state = .member ∨ (s.station a).state = .quiet →
            ((t.station a).state = .leaving ∧ (t.station a).held ≠ 0)
              ∨ ((t.station a).state = .absent ∧ (t.station a).held = 0 ∧ (t.station a).missed = 0))
        ∧ (t.station a).leaveReason = some .lost ∧ (t.mailbox a).queue = []
        ∧ (∀ b, b ≠ a → t.station b = s.station b ∧ t.mailbox b = s.mailbox b)
        ∧ t.ints.isSet .station = true ∧ t.ints.isFresh .station = true
        ∧ (t.station a).quota = (s.station a).quota ∧ (t.station a).maxClass = (s.station a).maxClass
        ∧ (t.station a).barred = (s.station a).barred)

/-- R98: a MANY uplink slot counts a clash in every state and sets CLASH; a word of even parity, and one of kind 6 or 7,
counts as a bad word. Both count as presence in JOINING, MEMBER and QUIET. Only good parity returns a QUIET station. -/
def Obligations.ClashesAndBadWords : Prop :=
  ∀ (s : State) (a : Nat) (w : Word), s.ready → s.inUplinkSlot a →
    (∀ act : BitVec 2, act = 2 ∨ act = 3 →
        ∃ t, exec (.slotEvent act w) s = .next t
          ∧ t.station a = { s.station a with
              clashes := satInc (s.station a).clashes
              missed := if (s.station a).state.present then 0 else (s.station a).missed }
          ∧ (∀ b, b ≠ a → t.station b = s.station b)
          ∧ t = { s with timer := (s.pastSlot a).timer, stations := t.stations, ints := s.ints.raise .clash })
      ∧ (oddOnes w = false ∨ ((s.station a).state ≠ .quiet ∧ uplinkBody w = none) →
        ∃ t, exec (.slotEvent 1 w) s = .next t
          ∧ t.station a = { s.station a with
              badWords := satInc (s.station a).badWords
              missed := if (s.station a).state.present then 0 else (s.station a).missed }
          ∧ (∀ b, b ≠ a → t.station b = s.station b)
          ∧ t = { s with timer := (s.pastSlot a).timer, stations := t.stations })
      ∧ ((s.station a).state = .quiet → oddOnes w = true → uplinkBody w = none →
        ∃ t, exec (.slotEvent 1 w) s = .next t
          ∧ t.station a = { s.station a with state := .member, missed := 0, badWords := satInc (s.station a).badWords }
          ∧ (∀ b, b ≠ a → t.station b = s.station b)
          ∧ t = { s with timer := (s.pastSlot a).timer, stations := t.stations, ints := s.ints.raise .station })

/-! ## Uplink words -/

/-- R118 to R120, R189, R190: reading an uplink word's kind, ack and body gives back what was written, with odd parity. -/
def Obligations.UplinkWordsRoundTrip : Prop :=
  ∀ (ack : BitVec 4) (b : UplinkBody),
    uplinkBody (uplinkWord ack b) = some b ∧ uplinkAck (uplinkWord ack b) = ack ∧ oddOnes (uplinkWord ack b) = true

/-- A word of good parity and known kind received with sense ONE acts as the row of its kind, whatever its bits of no
meaning hold (R123, R189); in a slot that is no uplink slot, and while STOPPED, an uplink word has no effect (log 11). -/
def Obligations.ReceivedWordsAreTheirRows : Prop :=
  (∀ (s : State) (a : Nat) (w : Word) (b : UplinkBody), s.ready → s.inUplinkSlot a → oddOnes w = true →
      uplinkBody w = some b → exec (.slotEvent 1 w) s = exec (b.command (uplinkAck w)) s)
    ∧ ∀ (s : State) (ack : BitVec 4) (b : UplinkBody), s.ready → (∀ a, ¬ s.inUplinkSlot a) →
      exec (b.command ack) s = .next s

/-- R130, R141: a MEMBER station's KEEP. Its head is removed where it has been sent and carries the ack; nothing else
happens beside presence.
Every word of a JOINING station acts by its ack alone: the ack of its sent JOINED notice removes it and makes the station
MEMBER (R103, R124); any other changes nothing. -/
def Obligations.AcksRemoveTheHead : Prop :=
  (∀ (s : State) (a : Nat) (ack : BitVec 4), s.ready → s.inUplinkSlot a → (s.station a).state = .member →
    (∀ (n : Notice) (q : List Notice), (s.mailbox a).queue = n :: q → 1 ≤ (s.mailbox a).head.sends →
        (s.mailbox a).head.sequence = some ack → ack ≠ 0 →
        exec (.keep ack) s = .next (((s.heard a).updMailbox a
          (fun m => { m with queue := q, head := .unsent })).pastSlot a))
      ∧ ((s.mailbox a).queue = [] ∨ (s.mailbox a).head.sends = 0 ∨ (s.mailbox a).head.sequence ≠ some ack ∨ ack = 0 →
        exec (.keep ack) s = .next ((s.heard a).pastSlot a)))
    ∧ (∀ (s : State) (a : Nat) (ack : BitVec 4) (b : UplinkBody), s.ready → s.inUplinkSlot a →
    (s.station a).state = .joining →
    (∀ q : List Notice, (s.mailbox a).queue = .joined :: q → 1 ≤ (s.mailbox a).head.sends →
        (s.mailbox a).head.sequence = some ack → ack ≠ 0 →
        ∃ t, exec (b.command ack) s = .next t ∧ t.station a = { s.station a with state := .member, missed := 0 }
          ∧ (∀ c, c ≠ a → t.station c = s.station c)
          ∧ t = { ((s.updMailbox a (fun m => { m with queue := q, head := .unsent })).pastSlot a) with
                  stations := t.stations, ints := s.ints.raise .station })
      ∧ ((s.mailbox a).queue = [] ∨ (s.mailbox a).head.sends = 0 ∨ (s.mailbox a).head.sequence ≠ some ack ∨ ack = 0 →
        exec (b.command ack) s = .next ((s.heard a).pastSlot a)))

/-- R100, R108: a QUIET station's good word first returns it to MEMBER and then acts as a MEMBER's; a LEAVING station's
words do nothing at all. -/
def Obligations.QuietReturnsAndLeavingIsIgnored : Prop :=
  ∀ (s : State) (a : Nat) (ack : BitVec 4) (b : UplinkBody), s.ready → s.inUplinkSlot a →
    ((s.station a).state = .quiet → exec (b.command ack) s = exec (b.command ack)
        { (s.updStation a (fun r => { r with state := .member })) with ints := s.ints.raise .station })
      ∧ ((s.station a).state = .leaving → exec (b.command ack) s = .next (s.pastSlot a))

/-- R122, R126, R127: a MEMBER station's ASK, by the first row that applies: a duplicate of the last answered, a repeat of
the ask held, BUSY while another is held, else accepted at the tail of the Uplink Ask Queue. The word's ack comes first. An
ask accepted while the engine is IDLE and no other work waits is taken in the same event, and no state shows it WAITING. -/
def Obligations.AsksAreTakenByTheirRow : Prop :=
  ∀ (s : State) (a : Nat) (ack : BitVec 4) (f : AskFields), s.ready → s.inUplinkSlot a → (s.station a).state = .member →
    ((s.ask a).lastAnswered = some f.seq →
        exec (.ask ack f) s = .next (((s.heard a).takeAck a ack).pastSlot a))
      ∧ ((s.ask a).lastAnswered ≠ some f.seq →
        ((s.ask a).status = .waiting f.seq ∨ (s.ask a).status = .inFlight f.seq →
          exec (.ask ack f) s = .next (((s.heard a).takeAck a ack).pastSlot a))
        ∧ (∀ q, q ≠ f.seq → (s.ask a).status = .waiting q ∨ (s.ask a).status = .inFlight q →
          exec (.ask ack f) s = .next (((((s.heard a).takeAck a ack).handNotice a (.refusedAsk .busy f.seq)).updAsk a
            (fun k => { k with lastAnswered := some f.seq })).pastSlot a))
        ∧ ((s.ask a).status = .none →
          ∃ t : State, t.askQueue = s.askQueue ++ [{ station := a, fields := f }]
            ∧ t.ask a = { s.ask a with status := .waiting f.seq } ∧ (∀ b, b ≠ a → t.ask b = s.ask b)
            ∧ t = { ((s.heard a).takeAck a ack).pastSlot a with asks := t.asks, askQueue := t.askQueue }
            ∧ (s.engine.context.isSome = true → exec (.ask ack f) s = .next t)
            ∧ (s.engine.context = none → ∃ u, exec (.ask ack f) s = .next u ∧ exec .placementTake t = .next u
                ∧ u.askQueue = [] ∧ ∀ q, (u.ask a).status ≠ .waiting q)))

/-- R120, R128, R129: a MEMBER station's DROP or RENEW whose handle fails the check or names another's grant is refused
STALE_HANDLE; of a DRAINING grant of its own, the DROP is ignored and the RENEW refused RETIRING.
The RENEW of a grant of its own that is not DRAINING loads the lease, kept under code 0 and else LEASE_CODEk, and queues
RENEWED; idle state, and every other record, stay (R93, R94).
R128, R45: a MEMBER station's DROP of a grant of its own that is not DRAINING retires it, with REVOKED DROPPED. -/
def Obligations.DropAndRenewWords : Prop :=
  (∀ (s : State) (a : Nat) (ack code : BitVec 4) (h : Handle), s.ready → s.inUplinkSlot a →
    (s.station a).state = .member →
    (s.handlePasses h = false ∨ (s.grant h.index.toNat).owner ≠ some a →
        exec (.drop ack h) s = .next ((((s.heard a).takeAck a ack).handNotice a (.refusedHandle .staleHandle h)).pastSlot a)
          ∧ exec (.renewWord ack h code) s =
            .next ((((s.heard a).takeAck a ack).handNotice a (.refusedHandle .staleHandle h)).pastSlot a))
      ∧ (s.handlePasses h = true → (s.grant h.index.toNat).owner = some a → (s.grant h.index.toNat).state = .draining →
        exec (.drop ack h) s = .next (((s.heard a).takeAck a ack).pastSlot a)
          ∧ exec (.renewWord ack h code) s =
            .next ((((s.heard a).takeAck a ack).handNotice a (.refusedHandle .retiring h)).pastSlot a)))
    ∧ (∀ (s : State) (a : Nat) (ack code : BitVec 4) (h : Handle) (r : BitVec 16), s.ready → s.inUplinkSlot a →
    (s.station a).state = .member → s.handlePasses h = true → (s.grant h.index.toNat).owner = some a →
    (s.grant h.index.toNat).state ≠ .draining →
    (code = 0 → r = (s.grant h.index.toNat).leaseReload) →
    (∀ k : Nat, 1 ≤ k → k ≤ 15 → code = BitVec.ofNat 4 k →
      r.setWidth 32 = s.registerRead (BitVec.ofNat 6 (0x10 + k))) →
      exec (.renewWord ack h code) s = .next (((((s.heard a).takeAck a ack).updGrant h.index.toNat
        (fun g => { g with leaseReload := r, leaseRemaining := r, leaseWarned := false })).handNotice a
          (.renewed h r)).pastSlot a))
    ∧ (∀ (s : State) (a : Nat) (ack : BitVec 4) (h : Handle), s.ready → s.inUplinkSlot a → (s.station a).state = .member →
    s.handlePasses h = true → (s.grant h.index.toNat).owner = some a → s.canRetire h.index.toNat →
      ∃ t, exec (.drop ack h) s = .next t ∧ t.timer = (s.pastSlot a).timer ∧ s.retiredTo h.index.toNat t
        ∧ (t.station a).state = .member ∧ t.asks = s.asks ∧ t.askQueue = s.askQueue
        ∧ (((s.heard a).takeAck a ack |>.mailbox a).queue.length < 8 →
            (t.mailbox a).queue = ((s.heard a).takeAck a ack |>.mailbox a).queue
              ++ [.revoked h .dropped (t.effectFor [h.index.toNat]).frame]))

/-- R105, R107: a MEMBER station's LEAVE (reason LEFT) and JOIN (reason REJOIN): the station is LEAVING, or already
ABSENT where it holds no record, its notice queue empty, its waiting ask gone and an ask in flight kept. -/
def Obligations.LeaveAndRejoin : Prop :=
  ∀ (s : State) (a : Nat) (ack : BitVec 4), s.ready → s.inUplinkSlot a → (s.station a).state = .member →
    ∀ c why, (c = .leave ack ∧ why = .left) ∨ (c = .join ack ∧ why = .rejoin) →
      ∃ t, exec c s = .next t ∧ t.timer = (s.pastSlot a).timer
        ∧ (((t.station a).state = .leaving ∧ (t.station a).held ≠ 0)
            ∨ ((t.station a).state = .absent ∧ (t.station a).held = 0))
        ∧ (t.station a).leaveReason = some why ∧ (t.mailbox a).queue = []
        ∧ (∀ q, (s.ask a).status = .waiting q →
            (t.ask a).status = .none ∧ t.askQueue = s.askQueue.filter (fun x => x.station != a))
        ∧ (∀ q, (s.ask a).status = .inFlight q → (t.ask a).status = .inFlight q ∧ t.askQueue = s.askQueue)
        ∧ (t.ask a).lastAnswered = (s.ask a).lastAnswered
        ∧ (∀ n, n ∈ s.payload → ∀ i, i < 240 → s.planAt n = some i → (s.grant i).owner = some a →
            (s.grant i).state.retirable = true → t.planAt n = none)
        ∧ (∀ b, b ≠ a → t.station b = s.station b ∧ t.mailbox b = s.mailbox b ∧ t.ask b = s.ask b)
        ∧ t.ints.isSet .station = true ∧ t.map.active = s.map.active ∧ t.commitCounter = s.commitCounter

/-- R102, R125, R138, R139: an ABSENT station's words. JOIN of a station not barred starts a join: counts 0, the next
sequence 1, JOINED alone in the queue, no last answered sequence. Every other good word, and a barred station's JOIN,
offers a LEFT reply, queued where the queue is empty and the stray hold-off 0, and else has no effect. -/
def Obligations.AbsentStationsJoinOrStray : Prop :=
  ∀ (s : State) (a : Nat) (ack : BitVec 4), s.ready → s.inUplinkSlot a → (s.station a).state = .absent →
    ((s.station a).barred = false → ∃ t, exec (.join ack) s = .next t
        ∧ t.station a = { s.station a with state := .joining, missed := 0, badWords := 0, clashes := 0 }
        ∧ (∀ b, b ≠ a → t.station b = s.station b ∧ t.mailbox b = s.mailbox b ∧ t.ask b = s.ask b)
        ∧ t.mailbox a = { s.mailbox a with queue := [.joined], head := .unsent, nextSeq := 1 }
        ∧ t.ask a = { s.ask a with lastAnswered := none }
        ∧ t = { s with timer := (s.pastSlot a).timer, stations := t.stations, mailboxes := t.mailboxes, asks := t.asks
                       ints := s.ints.raise .station })
      ∧ ∀ b : UplinkBody, b ≠ .join ∨ (s.station a).barred = true →
        exec (b.command ack) s = .next ((if (s.mailbox a).queue = [] ∧ (s.mailbox a).holdoff = 0 then
          s.updMailbox a (fun m => { m with queue := [.left], head := { sequence := some 0, sends := 0, countdown := 0 } })
          else s).pastSlot a)

/-- R108, R109: a LEAVING station that holds no record becomes ABSENT: queue emptied, suspended no, missed 0, STATION set,
the rest of its record kept. DEPARTURE_COMPLETE of any other station changes nothing (log 9). -/
def Obligations.DeparturesComplete : Prop :=
  ∀ (s : State) (a : BitVec 6), s.ready →
    ((s.station a.toNat).state = .leaving → (s.station a.toNat).held = 0 →
        ∃ t, exec (.departureComplete a) s = .next t
          ∧ t.station a.toNat = { s.station a.toNat with state := .absent, suspended := false, missed := 0 }
          ∧ (∀ b, b ≠ a.toNat → t.station b = s.station b ∧ t.mailbox b = s.mailbox b)
          ∧ t.mailbox a.toNat = { s.mailbox a.toNat with queue := [], head := .unsent }
          ∧ t = { s with stations := t.stations, mailboxes := t.mailboxes, ints := s.ints.raise .station })
      ∧ ((s.station a.toNat).state ≠ .leaving ∨ (s.station a.toNat).held ≠ 0 →
        exec (.departureComplete a) s = .next s)

/-! ## The downlink -/

/-- R140, R145, R147: an arbitration in which one station alone has a head, due and below the send limit. The head is
sent in slots 48 and 49 as its words A and B: at its first send it takes the next sequence, 1 to 15 in a ring, and a
retry repeats its own; its countdown is armed and its send count goes up. A LEFT reply goes with sequence 0, is removed,
and sets the stray hold-off. The pointer becomes the station. R104, R106, R146: a MEMBER or JOINING station whose head is
due again at or above the send limit is not served and leaves, reason NO_ACK; its queue is empty and the pointer stays.
Here it alone has a head. -/
def Obligations.ArbitrationSendsTheHead : Prop :=
  (∀ (s : State) (a : Nat) (n : Notice) (q : List Notice), s.ready → s.timer.timing = .running .arbitrationDue →
    1 ≤ a → a ≤ 47 → 1 ≤ s.arbiterPointer → s.arbiterPointer ≤ 47 → (s.mailbox a).queue = n :: q →
    (∀ b, b ≠ a → (s.mailbox b).queue = []) →
      (((s.station a).state = .joining ∨ (s.station a).state = .member) → n ≠ .left →
        ((s.mailbox a).head.sends = 0 ∧ (s.mailbox a).head.sequence = none → ∃ t, exec .downlinkArbitration s = .next t
          ∧ t.downlink = noticeWords a (s.mailbox a).nextSeq n ∧ t.arbiterPointer = a
          ∧ t.mailbox a = { s.mailbox a with
              head := { sequence := some (s.mailbox a).nextSeq, sends := 1, countdown := s.cfg.retryInterval.toNat }
              nextSeq := if (s.mailbox a).nextSeq = 15 then 1 else (s.mailbox a).nextSeq + 1 }
          ∧ (∀ b, b ≠ a → t.mailbox b = s.mailbox b)
          ∧ t = { s with timer := { s.timer with timing := .running (.slot 48) }, downlink := t.downlink
                         mailboxes := t.mailboxes, arbiterPointer := a })
        ∧ (∀ seq, 1 ≤ (s.mailbox a).head.sends → (s.mailbox a).head.sends < s.cfg.sendLimit.toNat →
          (s.mailbox a).head.countdown = 0 → (s.mailbox a).head.sequence = some seq →
          ∃ t, exec .downlinkArbitration s = .next t ∧ t.downlink = noticeWords a seq n ∧ t.arbiterPointer = a
            ∧ t.mailbox a = { s.mailbox a with
                head := { sequence := some seq, sends := (s.mailbox a).head.sends + 1
                          countdown := s.cfg.retryInterval.toNat } }
            ∧ t = { s with timer := { s.timer with timing := .running (.slot 48) }, downlink := t.downlink
                           mailboxes := t.mailboxes, arbiterPointer := a }))
      ∧ ((s.station a).state = .absent → n = .left → ∃ t, exec .downlinkArbitration s = .next t
          ∧ t.downlink = noticeWords a 0 .left ∧ t.arbiterPointer = a
          ∧ t.mailbox a = { s.mailbox a with queue := q, head := .unsent, holdoff := 16 }
          ∧ t = { s with timer := { s.timer with timing := .running (.slot 48) }, downlink := t.downlink
                         mailboxes := t.mailboxes, arbiterPointer := a }))
    ∧ (∀ (s : State) (a : Nat), s.ready → s.timer.timing = .running .arbitrationDue → 1 ≤ a → a ≤ 47 →
    1 ≤ s.arbiterPointer → s.arbiterPointer ≤ 47 → (s.mailbox a).queue ≠ [] →
    (∀ b, b ≠ a → (s.mailbox b).queue = []) → 1 ≤ (s.mailbox a).head.sends → (s.mailbox a).head.countdown = 0 →
    s.cfg.sendLimit.toNat ≤ (s.mailbox a).head.sends →
    (s.station a).state = .joining ∨ (s.station a).state = .member →
      ∃ t, exec .downlinkArbitration s = .next t ∧ t.downlink = [] ∧ t.arbiterPointer = s.arbiterPointer
        ∧ (t.station a).leaveReason = some .noAck ∧ (t.mailbox a).queue = []
        ∧ (∀ b, b ≠ a → t.station b = s.station b ∧ t.mailbox b = s.mailbox b)
        ∧ ((s.station a).state = .joining → (t.station a).state = .absent)
        ∧ ((s.station a).state = .member →
            ((t.station a).state = .leaving ∧ (t.station a).held ≠ 0)
              ∨ ((t.station a).state = .absent ∧ (t.station a).held = 0))
        ∧ t.timer = { s.timer with timing := .running (.slot 48) })

/-- R143, R144, R146: an arbitration over any number of heads. The stations are examined from the address after the
pointer up to 47 and then from 1 up to the pointer; the first eight that are eligible and within the send limit are
served, each with the next pair of slots, and the pointer becomes the last of them; one that has reached the limit and is
examined before the eighth is served leaves, reason NO_ACK. Every other station keeps its notices. -/
def Obligations.ArbitrationServesInOrder : Prop :=
  (∀ (s : State) (a : Nat), s.eligible a = true ↔ ∃ n q, (s.mailbox a).queue = n :: q
      ∧ ((((s.station a).state = .joining ∨ (s.station a).state = .member)
            ∧ ((s.mailbox a).head.sends = 0 ∨ (s.mailbox a).head.countdown = 0))
          ∨ ((s.station a).state = .absent ∧ n = .left)))
    ∧ (∀ (s : State) (a : Nat), s.atSendLimit a = true ↔
      ((s.station a).state = .joining ∨ (s.station a).state = .member) ∧ 1 ≤ (s.mailbox a).head.sends
        ∧ s.cfg.sendLimit.toNat ≤ (s.mailbox a).head.sends)
    ∧ ∀ (s : State) (order served gone : List Nat), s.ready → s.timer.timing = .running .arbitrationDue →
      1 ≤ s.arbiterPointer → s.arbiterPointer ≤ 47 →
      order = List.range' (s.arbiterPointer + 1) (47 - s.arbiterPointer) ++ List.range' 1 s.arbiterPointer →
      served = (order.filter (fun a => s.eligible a && !s.atSendLimit a)).take 8 →
      gone = order.filter (fun a => s.eligible a && s.atSendLimit a && decide
        ((order.takeWhile (fun b => b != a)).countP (fun b => s.eligible b && !s.atSendLimit b) < 8)) →
        ∃ t, exec .downlinkArbitration s = .next t
          ∧ t.downlink = served.flatMap (fun a =>
              match (s.mailbox a).queue with
              | [] => []
              | n :: _ => noticeWords a (if n = .left then 0
                  else (s.mailbox a).head.sequence.getD (s.mailbox a).nextSeq) n)
          ∧ t.arbiterPointer = served.getLastD s.arbiterPointer
          ∧ (∀ a ∈ served, (t.station a).state = (s.station a).state
              ∧ (∀ q, (s.mailbox a).queue = .left :: q →
                  t.mailbox a = { s.mailbox a with queue := q, head := .unsent, holdoff := 16 })
              ∧ (∀ n q, (s.mailbox a).queue = n :: q → n ≠ .left → (t.mailbox a).queue = (s.mailbox a).queue
                  ∧ (t.mailbox a).head = { sequence := some ((s.mailbox a).head.sequence.getD (s.mailbox a).nextSeq)
                                           sends := (s.mailbox a).head.sends + 1
                                           countdown := s.cfg.retryInterval.toNat }))
          ∧ (∀ a ∈ gone, (t.station a).leaveReason = some .noAck ∧ (t.mailbox a).queue = []
              ∧ ((t.station a).state = .leaving ∨ (t.station a).state = .absent))
          ∧ (∀ a, a ∉ served → a ∉ gone → t.station a = s.station a ∧ t.mailbox a = s.mailbox a)
          ∧ t.timer = { s.timer with timing := .running (.slot 48) }

/-! ## The Placement Engine -/

/-- R22: the handle check.
R43: the effective frame of a grant and the epoch it names. N is FN+1 while RUNNING and FN while STOPPED (R4); at the
edge at which R7 has advanced FN and the frame start of FN is still to be taken, N is FN (log 6). -/
def Obligations.HandlesAndEffectiveFrames : Prop :=
  (∀ (s : State) (h : Handle), s.handlePasses h = true ↔
    h.index.toNat ≤ 239 ∧ (s.grant h.index.toNat).state ≠ .free ∧ (s.grant h.index.toNat).state ≠ .placing
      ∧ h.generation = (s.grant h.index.toNat).generation)
    ∧ (∀ (s : State) (i : Nat),
    (∀ e, s.map.openEpoch = some e → e.names i = true → s.effectFor [i] = { frame := e.effective, epoch := some e.number })
      ∧ (∀ e, (∀ o, s.map.openEpoch = some o → o.names i = false) → s.map.sealedEpoch = some e → e.names i = true →
          s.effectFor [i] = { frame := e.effective, epoch := some e.number })
      ∧ ((∀ o, s.map.openEpoch = some o → o.names i = false) → (∀ e, s.map.sealedEpoch = some e → e.names i = false) →
          s.effectFor [i] = { frame := s.timer.nextFrame, epoch := none }))
    ∧ (∀ t : Timer, (t.timing = .stopped → t.nextFrame = t.fn) ∧ (t.timing = .running .startDue → t.nextFrame = t.fn)
    ∧ (∀ p, t.timing = .running p → p ≠ .startDue → t.nextFrame = t.fn + 1))

/-- R59: which kind of work an IDLE engine takes. LOCAL work alone, asks alone, or with both waiting the kind other than
the last taken; the take sets the last kind taken. A BUSY engine, and one with no work, takes nothing. -/
def Obligations.TheArbiterAlternates : Prop :=
  ∀ s : State, s.inReset = false →
    (s.engine.context.isSome = true → exec .placementTake s = .next s)
      ∧ (s.port.inProgress = none → s.askQueue = [] → exec .placementTake s = .next s)
      ∧ (s.engine.context = none → ∀ e, s.port.inProgress = some e → s.askQueue = [] ∨ s.engine.lastKind = .uplink →
          ∃ t, exec .placementTake s = .next t ∧ t.engine.lastKind = .localBus
            ∧ (s.port.requests = [] → t.askQueue = s.askQueue))
      ∧ (s.engine.context = none → ∀ q r, s.askQueue = q :: r →
          s.port.inProgress = none ∨ s.engine.lastKind = .localBus →
          ∃ t, exec .placementTake s = .next t ∧ t.engine.lastKind = .uplink ∧ t.askQueue = r
            ∧ t.port = s.port)

/-- R60, R62: a CREATE that fails a check is answered with the status of the first that fails. No record is reserved, the
engine stays IDLE, the port posts the result and is IDLE. (No further request waits.)
R60, R62, R121: an ask that fails a check draws REFUSED with the status and its sequence, which becomes the last
answered; its ask status is NONE. The status is that of the first check that fails. -/
def Obligations.NewTakesAreChecked : Prop :=
  (∀ (s : State) (e : Quad) (st : Status), s.inReset = false → s.engine.context = none → s.port.inProgress = some e →
    (s.askQueue = [] ∨ s.engine.lastKind = .uplink) → e.op = .create → s.port.requests = [] →
    (let r := s.station e.station
     let f := e.createFields
     (¬ (1 ≤ e.station ∧ e.station ≤ 47 ∧ (r.state = .member ∨ r.state = .quiet)) ∧ st = .notMember)
      ∨ ((1 ≤ e.station ∧ e.station ≤ 47 ∧ (r.state = .member ∨ r.state = .quiet)) ∧
          ((r.suspended = true ∧ st = .suspended)
            ∨ (r.suspended = false ∧ ¬ (1 ≤ f.count.toNat ∧ f.count.toNat ≤ 64 ∧ f.pattern ≠ 3) ∧ st = .badRequest)
            ∨ (r.suspended = false ∧ (1 ≤ f.count.toNat ∧ f.count.toNat ≤ 64 ∧ f.pattern ≠ 3) ∧
                ((16 ≤ r.held ∧ st = .grantLimit)
                  ∨ (r.held < 16 ∧ r.quota.toNat < r.planned + f.count.toNat ∧ st = .quota)
                  ∨ (r.held < 16 ∧ r.planned + f.count.toNat ≤ r.quota.toNat ∧ s.freeQueue = [] ∧ st = .tableFull)))))) →
      ∃ (t : State) (q : Quad), exec .placementTake s = .next t ∧ q.refuses 1 st e.tag
        ∧ t = { s with engine := { s.engine with lastKind := .localBus }
                       port := { s.port with inProgress := none, results := s.port.results ++ [q] }
                       ints := s.ints.raise .result })
    ∧ (∀ (s : State) (q : Ask) (rest : List Ask) (st : Status), s.inReset = false → s.engine.context = none →
    s.askQueue = q :: rest → (s.port.inProgress = none ∨ s.engine.lastKind = .localBus) →
    (let r := s.station q.station
     let f := q.fields
     (r.state ≠ .member ∧ st = .notMember)
      ∨ (r.state = .member ∧ r.suspended = true ∧ st = .suspended)
      ∨ (r.state = .member ∧ r.suspended = false ∧ r.maxClass < f.cls ∧ st = .cls)
      ∨ (r.state = .member ∧ r.suspended = false ∧ f.cls ≤ r.maxClass ∧ f.pattern = 3 ∧ st = .badRequest)
      ∨ (r.state = .member ∧ r.suspended = false ∧ f.cls ≤ r.maxClass ∧ f.pattern ≠ 3 ∧
          ((16 ≤ r.held ∧ st = .grantLimit)
            ∨ (r.held < 16 ∧ r.quota.toNat < r.planned + (f.countLessOne.toNat + 1) ∧ st = .quota)
            ∨ (r.held < 16 ∧ r.planned + (f.countLessOne.toNat + 1) ≤ r.quota.toNat ∧ s.freeQueue = []
                ∧ st = .tableFull)))) →
      ∃ t u, exec .placementTake s = .next t
        ∧ u = { s with engine := { s.engine with lastKind := .uplink }, askQueue := rest }
        ∧ t.ask q.station = { status := .none, lastAnswered := some q.fields.seq }
        ∧ (∀ b, b ≠ q.station → t.ask b = s.ask b)
        ∧ t = { u.handNotice q.station (.refusedAsk st q.fields.seq) with asks := t.asks })

/-- R18, R28, R60, R63: a CREATE that passes every check reserves the head of the Free Record Queue and writes the record
from the request, PLACING, its generation kept; the station holds one record more; the engine is BUSY with the search's
outcome (SearchesAndPreemption); PLAN, the epochs and the commit counter stay, and so does the port. An ask likewise; its
status is IN_FLIGHT with its sequence (R121). -/
def Obligations.TakesReserve : Prop :=
  (∀ (s : State) (e : Quad) (i : Nat) (rest : List Nat) (p : Pattern), s.inReset = false → s.engine.context = none →
    s.port.inProgress = some e → (s.askQueue = [] ∨ s.engine.lastKind = .uplink) → e.op = .create →
    1 ≤ e.station → e.station ≤ 47 → ((s.station e.station).state = .member ∨ (s.station e.station).state = .quiet) →
    (s.station e.station).suspended = false → 1 ≤ e.createFields.count.toNat → e.createFields.count.toNat ≤ 64 →
    Pattern.ofBits e.createFields.pattern = some p → (s.station e.station).held < 16 →
    (s.station e.station).planned + e.createFields.count.toNat ≤ (s.station e.station).quota.toNat →
    s.freeQueue = i :: rest →
      ∃ (t : State) (c : Context), exec .placementTake s = .next t
        ∧ t.engine = { context := some c, lastKind := .localBus } ∧ c.kind = .create i e.createFields.lease
        ∧ c.station = e.station ∧ c.newCount = e.createFields.count.toNat
        ∧ t.grant i = { Grant.freeWith (s.grant i).generation with
            state := .placing, owner := some e.station, origin := .localBus, cls := e.createFields.cls
            preemptible := e.createFields.preemptible, pattern := p, requested := e.createFields.count.toNat
            stream := e.createFields.stream, tag := e.tag }
        ∧ (∀ j, j ≠ i → t.grant j = s.grant j)
        ∧ t.station e.station = { s.station e.station with held := (s.station e.station).held + 1 }
        ∧ (∀ a, a ≠ e.station → t.station a = s.station a)
        ∧ c.outcome = s.search i e.station e.createFields.cls
            (fun avail => freshSearch p s.timer.code avail e.createFields.count.toNat)
        ∧ t = { s with engine := t.engine, grants := t.grants, stations := t.stations, freeQueue := rest })
    ∧ ∀ (s : State) (q : Ask) (rest : List Ask) (i : Nat) (free : List Nat) (p : Pattern), s.inReset = false →
    s.engine.context = none → s.askQueue = q :: rest → (s.port.inProgress = none ∨ s.engine.lastKind = .localBus) →
    (s.station q.station).state = .member → (s.station q.station).suspended = false →
    q.fields.cls ≤ (s.station q.station).maxClass → Pattern.ofBits q.fields.pattern = some p →
    (s.station q.station).held < 16 →
    (s.station q.station).planned + (q.fields.countLessOne.toNat + 1) ≤ (s.station q.station).quota.toNat →
    s.freeQueue = i :: free →
      ∃ (t : State) (c : Context), exec .placementTake s = .next t
        ∧ t.engine = { context := some c, lastKind := .uplink } ∧ c.kind = .ask i q.fields.seq q.fields.leaseCode
        ∧ c.station = q.station ∧ c.newCount = q.fields.countLessOne.toNat + 1
        ∧ c.outcome = s.search i q.station q.fields.cls
            (fun avail => freshSearch p s.timer.code avail (q.fields.countLessOne.toNat + 1))
        ∧ t.grant i = { Grant.freeWith (s.grant i).generation with
            state := .placing, owner := some q.station, origin := .uplink, cls := q.fields.cls
            preemptible := q.fields.preemptible, pattern := p, requested := q.fields.countLessOne.toNat + 1
            stream := q.fields.stream }
        ∧ (∀ j, j ≠ i → t.grant j = s.grant j)
        ∧ t.station q.station = { s.station q.station with held := (s.station q.station).held + 1 }
        ∧ (∀ a, a ≠ q.station → t.station a = s.station a)
        ∧ t.ask q.station = { s.ask q.station with status := .inFlight q.fields.seq }
        ∧ (∀ a, a ≠ q.station → t.ask a = s.ask a)
        ∧ t = { s with engine := t.engine, grants := t.grants, stations := t.stations, asks := t.asks, freeQueue := free
                       askQueue := rest }

/-- R60, R61, R63, R68 to R71: the take of a RESIZE. One that fails a check is answered with the status of the first that
fails. (No further request waits.) One that passes makes the engine BUSY with it and the search's outcome
(SearchesAndPreemption) and changes nothing else; a new count equal to the PLAN slots keeps them, and a smaller one keeps
an ANY or BLOCK grant's lowest. -/
def Obligations.ResizeTakes : Prop :=
  ∀ (s : State) (e : Quad) (g : Grant) (i n : Nat), s.inReset = false → s.engine.context = none →
    s.port.inProgress = some e → (s.askQueue = [] ∨ s.engine.lastKind = .uplink) → e.op = .resize →
    i = e.handle.index.toNat → g = s.grant i → n = e.newCount.toNat →
    (∀ st, s.port.requests = [] → ((s.handlePasses e.handle = false ∧ st = .staleHandle)
        ∨ (s.handlePasses e.handle = true ∧ g.state = .draining ∧ st = .retiring)
        ∨ (s.handlePasses e.handle = true ∧ g.state ≠ .draining ∧ ∃ a r, g.owner = some a ∧ r = s.station a
          ∧ ((¬ (r.state = .member ∨ r.state = .quiet) ∧ st = .notMember)
            ∨ ((r.state = .member ∨ r.state = .quiet) ∧
              ((r.suspended = true ∧ st = .suspended)
                ∨ (r.suspended = false ∧ ¬ (1 ≤ n ∧ n ≤ 64) ∧ st = .badRequest)
                ∨ (r.suspended = false ∧ (1 ≤ n ∧ n ≤ 64) ∧ g.planCount < n
                  ∧ r.quota.toNat < r.planned + (n - g.planCount) ∧ st = .quota)))))) →
        ∃ (t : State) (q : Quad), exec .placementTake s = .next t ∧ q.refuses 2 st e.tag
          ∧ t = { s with engine := { s.engine with lastKind := .localBus }
                         port := { s.port with inProgress := none, results := s.port.results ++ [q] }
                         ints := s.ints.raise .result })
      ∧ (∀ a, s.handlePasses e.handle = true → g.state ≠ .draining → g.owner = some a →
        (s.station a).state = .member ∨ (s.station a).state = .quiet → (s.station a).suspended = false → 1 ≤ n → n ≤ 64 →
        n ≤ g.planCount ∨ (s.station a).planned + (n - g.planCount) ≤ (s.station a).quota.toNat →
        ∃ (t : State) (c : Context), exec .placementTake s = .next t
          ∧ t = { s with engine := { context := some c, lastKind := .localBus } }
          ∧ c.kind = .resize e.handle ∧ c.station = a ∧ c.newCount = n
          ∧ c.outcome = s.search i a g.cls (fun avail => resizeSearch g.pattern s.timer.code avail (s.planSlots i) n)
          ∧ (n = (s.planSlots i).length → c.outcome = .chosen (s.planSlots i) [])
          ∧ (n < (s.planSlots i).length → g.pattern ≠ .even → c.outcome = .chosen ((s.planSlots i).take n) []))

/-- R65: an ANY search chooses the n lowest-numbered available slots and fails if fewer are available.
R66: a BLOCK search chooses the run of n available slots with the lowest start, 64 ≤ start ≤ L−n, and fails if there is no
such run. R67: an EVEN search chooses the lowest available slot of each of n windows of width floor(P/n), and fails if a
window has none. -/
def Obligations.PatternSearches : Prop :=
  (∀ (c : LengthCode) (avail : Nat → Bool) (n : Nat),
    (∀ t, anySearch c avail n = some t →
        t.length = n ∧ t.Pairwise (· < ·) ∧ (∀ x ∈ t, 64 ≤ x ∧ x < c.slots ∧ avail x = true)
          ∧ ∀ y, 64 ≤ y → y < c.slots → avail y = true → y ∉ t → ∀ x ∈ t, x < y)
      ∧ (anySearch c avail n = none ↔ ((List.range c.slots).filter (fun x => decide (64 ≤ x) && avail x)).length < n))
    ∧ (∀ (c : LengthCode) (avail : Nat → Bool) (n : Nat), 1 ≤ n → n ≤ 64 →
    (∀ t, blockSearch c avail n = some t ↔ ∃ b, t = List.range' b n ∧ 64 ≤ b ∧ b ≤ c.slots - n
        ∧ (∀ x, b ≤ x → x < b + n → avail x = true)
        ∧ ∀ b', 64 ≤ b' → b' < b → ∃ x, b' ≤ x ∧ x < b' + n ∧ avail x = false))
    ∧ (∀ (c : LengthCode) (avail : Nat → Bool) (n : Nat), 1 ≤ n → n ≤ 64 →
    ∀ t, evenSearch c avail n = some t ↔ t.length = n ∧ ∀ i, i < n → ∃ x, t[i]? = some x
      ∧ 64 + i * ((c.slots - 64) / n) ≤ x ∧ x < 64 + (i + 1) * ((c.slots - 64) / n) ∧ avail x = true
      ∧ ∀ y, 64 + i * ((c.slots - 64) / n) ≤ y → y < x → avail y = false)

/-- R63, R64, R72 to R74: the search at a take. A slot is available where it is FREE and untainted, where the grant
resized owns it, and, untainted, where a candidate added owns it. A failed free pass is NO_ROOM where POLICY bit 0 is 0
or the class 0. Else the candidates, class ascending, then commit sequence descending, then index ascending, are added
one at a time, at most four, until the search succeeds; the victims are the added ones that own a chosen slot, in that
order. R68 to R71: what a resize searches for. The same count keeps the slots; a smaller one keeps an ANY or BLOCK
grant's lowest. A growing ANY grant keeps its slots and adds the lowest available others; a growing BLOCK grant extends
upward, else downward, else searches afresh; an EVEN grant searches afresh. -/
def Obligations.SearchesAndPreemption : Prop :=
  (∀ (s : State) (self a n : Nat) (cls : BitVec 2) (added : List Nat),
    (s.available self added n = true ↔ (s.planAt n = none ∧ s.taintAt n = 0) ∨ s.planAt n = some self
        ∨ ∃ i ∈ added, s.planAt n = some i ∧ s.taintAt n = 0)
      ∧ (∀ i, i ∈ s.candidates self a cls ↔ i < 240 ∧ (s.grant i).preemptible = true ∧ (s.grant i).cls < cls
          ∧ 0 < (s.grant i).planCount
          ∧ ((s.grant i).state = .pending ∨ (s.grant i).state = .live ∨ (s.grant i).state = .shifting)
          ∧ (s.grant i).owner ≠ some a ∧ i ≠ self)
      ∧ (s.candidates self a cls).Pairwise (fun i j => (s.grant i).cls < (s.grant j).cls
          ∨ ((s.grant i).cls = (s.grant j).cls ∧ ((s.grant j).commitSeq < (s.grant i).commitSeq
            ∨ ((s.grant i).commitSeq = (s.grant j).commitSeq ∧ i < j)))))
    ∧ (∀ (s : State) (self a : Nat) (cls : BitVec 2) (find : (Nat → Bool) → Option (List Nat)) (order : List Nat),
      order = s.candidates self a cls →
        (∀ t, find (s.available self []) = some t → s.search self a cls find = .chosen t [])
          ∧ (find (s.available self []) = none →
            (s.cfg.preempt = false ∨ cls = 0 → s.search self a cls find = .noRoom)
              ∧ (s.cfg.preempt = true → cls ≠ 0 →
                (∀ k t, 1 ≤ k → k ≤ 4 → k ≤ order.length →
                    (∀ j, 1 ≤ j → j < k → find (s.available self (order.take j)) = none) →
                    find (s.available self (order.take k)) = some t →
                    s.search self a cls find = .chosen t
                      (((order.take k).filter (fun i => t.any (fun n => s.planAt n == some i))).map s.handle))
                  ∧ ((∀ j, 1 ≤ j → j ≤ 4 → j ≤ order.length → find (s.available self (order.take j)) = none) →
                    s.search self a cls find = .noRoom))))
    ∧ ∀ (c : LengthCode) (avail : Nat → Bool) (own : List Nat) (n : Nat),
      (∀ p, n = own.length → resizeSearch p c avail own n = some own)
        ∧ (∀ p, p ≠ .even → n < own.length → resizeSearch p c avail own n = some (own.take n))
        ∧ (n ≠ own.length → resizeSearch .even c avail own n = evenSearch c avail n)
        ∧ (own.length < n → own.Pairwise (· < ·) → (∀ x ∈ own, 64 ≤ x ∧ x < c.slots) →
          (∀ t, resizeSearch .any c avail own n = some t → t.length = n ∧ t.Pairwise (· < ·) ∧ (∀ x ∈ own, x ∈ t)
              ∧ (∀ x ∈ t, x ∉ own → 64 ≤ x ∧ x < c.slots ∧ avail x = true)
              ∧ ∀ y, 64 ≤ y → y < c.slots → avail y = true → y ∉ t → ∀ x ∈ t, x ∉ own → x < y)
            ∧ (resizeSearch .any c avail own n = none ↔ ((List.range c.slots).filter
                (fun x => decide (64 ≤ x) && avail x && !own.contains x)).length < n - own.length))
        ∧ (∀ b k, own = List.range' b k → 1 ≤ k → k < n → 64 ≤ b →
          ∀ up down, (up ↔ b + n ≤ c.slots ∧ ∀ x, b + k ≤ x → x < b + n → avail x = true) →
            (down ↔ 64 + (n - k) ≤ b ∧ ∀ x, b - (n - k) ≤ x → x < b → avail x = true) →
            (up → resizeSearch .block c avail own n = some (List.range' b n))
              ∧ (¬ up → down → resizeSearch .block c avail own n = some (List.range' (b - (n - k)) n))
              ∧ (¬ up → ¬ down → resizeSearch .block c avail own n = blockSearch c avail n))

/-- R29, R77, R79: a placement whose station has left, or whose outcome is NO_ROOM, ends without a commit. The PLACING
record of a CREATE or an ask goes back to the head of the Free Record Queue, its generation kept; the station holds one
record fewer, and a LEAVING station that holds none goes ABSENT. A LOCAL request is answered STATION_GONE or NO_ROOM. An
ask is dropped with no notice, its last answered sequence kept, or refused NO_ROOM, its sequence the last answered; its
ask status is NONE. A RESIZE changes nothing but its result. (No further request waits.) -/
def Obligations.PlacementsEndWithoutACommit : Prop :=
  ∀ (s : State) (c : Context) (gone noRoom : Prop), s.ready → s.engine.context = some c → s.port.requests = [] →
    (gone ↔ (s.station c.station).state ≠ .member ∧ (s.station c.station).state ≠ .quiet) →
    (noRoom ↔ ¬ gone ∧ c.outcome = .noRoom) →
      (∀ (i : Nat) (lease : BitVec 16) (e : Quad) (st : Status), c.kind = .create i lease → s.port.inProgress = some e →
        (s.grant i).owner = some c.station → (gone ∧ st = .stationGone) ∨ (noRoom ∧ st = .noRoom) →
          ∃ (t : State) (q : Quad), exec .commitPoint s = .next t ∧ s.recordReturned c i t
            ∧ t.port = { s.port with inProgress := none, results := s.port.results ++ [q] }
            ∧ q.refuses e.opCode st e.tag ∧ t.ints.isSet .result = true ∧ t.asks = s.asks)
        ∧ (∀ (i : Nat) (seq code : BitVec 4), c.kind = .ask i seq code → (s.grant i).owner = some c.station →
          gone ∨ noRoom →
            ∃ t, exec .commitPoint s = .next t ∧ s.recordReturned c i t ∧ t.port = s.port
              ∧ (t.ask c.station).status = .none
              ∧ (gone → (t.ask c.station).lastAnswered = (s.ask c.station).lastAnswered
                  ∧ ((t.mailbox c.station).queue = (s.mailbox c.station).queue ∨ (t.mailbox c.station).queue = []))
              ∧ (noRoom → (t.ask c.station).lastAnswered = some seq
                  ∧ s.queues c.station [.refusedAsk .noRoom seq] t))
        ∧ (∀ (h : Handle) (e : Quad) (st : Status), c.kind = .resize h → s.port.inProgress = some e →
          (gone ∧ st = .stationGone) ∨ (noRoom ∧ s.handlePasses h = true ∧ (s.grant h.index.toNat).state ≠ .draining
              ∧ st = .noRoom) →
            ∃ (t : State) (q : Quad), exec .commitPoint s = .next t ∧ q.refuses e.opCode st e.tag
              ∧ t = { s with engine := { s.engine with context := none }
                             port := { s.port with inProgress := none, results := s.port.results ++ [q] }
                             ints := s.ints.raise .result })

/-- R20, R39, R42, R47, R80, R81: the commit of a CREATE or an ask without victims. PLAN gives the record the chosen
slots and keeps every other entry, ACTIVE stays; the counter advances and dates the record; the lease is loaded, from the
request or the LEASE_CODE register (R92); the record is PENDING; the station's planned slots grow; an OPEN epoch carries
every change, merged with the one it held for the slot, opened with S and E reckoned from N where none was OPEN. A
CREATE's owner is handed GRANTED with sequence 0 and its result is OK. An ask draws GRANTED with its own sequence, which
becomes the last answered; its ask status is NONE (R121). (No further request waits.) -/
def Obligations.CommitPlacesTheGrant : Prop :=
  ∀ (s : State) (c : Context) (i : Nat) (slots : List Nat), s.ready →
    s.engine.context = some c → c.outcome = .chosen slots [] →
    ((s.station c.station).state = .member ∨ (s.station c.station).state = .quiet) → s.placesNew c i →
    slots ≠ [] → slots.Nodup → (∀ n ∈ slots, n ∈ s.payload ∧ s.planAt n = none) →
      (∀ (e : Quad) (lease : BitVec 16), c.kind = .create i lease → s.port.inProgress = some e → s.port.requests = [] →
        ∃ (t : State) (q : Quad), exec .commitPoint s = .next t ∧ s.committedTo c i lease slots t
          ∧ t.port = { s.port with inProgress := none, results := s.port.results ++ [q] }
          ∧ q.places e.opCode e.tag (s.handle i) (t.effectFor [i]) ∧ t.asks = s.asks
          ∧ s.queues c.station [.granted (s.handle i) (s.grant i).stream 0 (t.effectFor [i]).frame] t)
        ∧ (∀ (seq code : BitVec 4) (r : BitVec 16), c.kind = .ask i seq code → (code = 0 → r = 0) →
          (∀ k : Nat, 1 ≤ k → k ≤ 15 → code = BitVec.ofNat 4 k →
            r.setWidth 32 = s.registerRead (BitVec.ofNat 6 (0x10 + k))) →
            ∃ t, exec .commitPoint s = .next t ∧ s.committedTo c i r slots t ∧ t.port = s.port
              ∧ t.ask c.station = { status := .none, lastAnswered := some seq }
              ∧ (∀ a, a ≠ c.station → t.ask a = s.ask a)
              ∧ s.queues c.station [.granted (s.handle i) (s.grant i).stream seq (t.effectFor [i]).frame] t)

/-- R45, R47, R74, R80, R81: the commit of a CREATE, an ask or a RESIZE with victims. Each victim whose handle passes and
that is not DRAINING loses every slot it has in PLAN, stands DRAINING or is freed, and its owner is told REVOKED
PREEMPTED, in the order of the list and before GRANTED or SHIFTED; any other victim is skipped. The record placed gets
the chosen slots and the new commit sequence, a resized one its new count besides; every other record, and ACTIVE, stay.
The result of a CREATE or RESIZE is OK. (No further request waits, and PLAN follows ACTIVE, as PlanFollowsActive keeps
it.) -/
def Obligations.CommitsRetireTheirVictims : Prop :=
  (∀ (s : State) (c : Context) (i : Nat) (slots : List Nat) (victims taken : List Handle) (seq : BitVec 4), s.ready →
    s.engine.context = some c → c.outcome = .chosen slots victims →
    ((∃ lease, c.kind = .create i lease ∧ seq = 0) ∨ ∃ code, c.kind = .ask i seq code) → s.port.requests = [] →
    s.map.follows →
    ((s.station c.station).state = .member ∨ (s.station c.station).state = .quiet) → s.placesNew c i →
    taken = victims.filter (fun v => s.handlePasses v && (s.grant v.index.toNat).state != .draining) →
    victims.Nodup → (∀ v ∈ taken, s.canRetire v.index.toNat) → slots ≠ [] → slots.Nodup →
    (∀ n ∈ slots, n ∈ s.payload ∧ (s.planAt n = none ∨ ∃ v ∈ taken, s.planAt n = some v.index.toNat)) →
      ∃ t, exec .commitPoint s = .next t
        ∧ (∀ n, t.planAt n = if n ∈ slots then some i
            else if taken.any (fun v => (s.planSlots v.index.toNat).contains n) then none else s.planAt n)
        ∧ t.map.active = s.map.active ∧ t.commitCounter = s.commitCounter + 1
        ∧ ((t.grant i).state = .pending ∧ (t.grant i).planCount = slots.length
            ∧ (t.grant i).commitSeq = s.commitCounter + 1 ∧ (t.grant i).generation = (s.grant i).generation)
        ∧ (∀ v ∈ taken, s.drainsOrFrees v.index.toNat t)
        ∧ (∀ j, j ≠ i → (∀ v ∈ taken, v.index.toNat ≠ j) → t.grant j = s.grant j)
        ∧ (∀ a, s.queues a ((taken.filter (fun v => (s.grant v.index.toNat).owner == some a)).map
              (fun v => .revoked v .preempted (t.effectFor [v.index.toNat]).frame)
            ++ if a = c.station then [.granted (s.handle i) (s.grant i).stream seq (t.effectFor [i]).frame] else []) t)
        ∧ (∀ e lease, c.kind = .create i lease → s.port.inProgress = some e →
            ∃ q : Quad, t.port = { s.port with inProgress := none, results := s.port.results ++ [q] }
              ∧ q.places e.opCode e.tag (s.handle i) (t.effectFor [i])))
    ∧ ∀ (s : State) (c : Context) (h : Handle) (i : Nat) (slots : List Nat) (victims taken : List Handle), s.ready →
    s.engine.context = some c → c.outcome = .chosen slots victims → c.kind = .resize h → i = h.index.toNat →
    s.port.requests = [] → s.map.follows →
    ((s.station c.station).state = .member ∨ (s.station c.station).state = .quiet) →
    s.handlePasses h = true → (s.grant i).state ≠ .draining → (s.grant i).owner = some c.station →
    (s.grant i).planCount = (s.planSlots i).length →
    taken = victims.filter (fun v => s.handlePasses v && (s.grant v.index.toNat).state != .draining) →
    victims.Nodup → (∀ v ∈ taken, v.index.toNat ≠ i ∧ s.canRetire v.index.toNat) → slots ≠ [] → slots.Nodup →
    (∀ n ∈ slots, n ∈ s.payload ∧
      (s.planAt n = none ∨ s.planAt n = some i ∨ ∃ v ∈ taken, s.planAt n = some v.index.toNat)) →
      ∃ t, exec .commitPoint s = .next t
        ∧ (∀ n, t.planAt n = if n ∈ slots then some i
            else if (s.planSlots i).contains n || taken.any (fun v => (s.planSlots v.index.toNat).contains n) then none
            else s.planAt n)
        ∧ t.map.active = s.map.active ∧ t.commitCounter = s.commitCounter + 1
        ∧ t.grant i = { s.grant i with
            state := (t.grant i).state, requested := c.newCount, planCount := slots.length
            commitSeq := s.commitCounter + 1 }
        ∧ ((s.grant i).activeCount = 0 → (t.grant i).state = .pending)
        ∧ ((s.grant i).activeCount ≠ 0 →
            (t.grant i).state = if t.planSlots i = s.activeSlots i then .live else .shifting)
        ∧ (∀ v ∈ taken, s.drainsOrFrees v.index.toNat t)
        ∧ (∀ j, j ≠ i → (∀ v ∈ taken, v.index.toNat ≠ j) → t.grant j = s.grant j)
        ∧ (∀ a, s.queues a ((taken.filter (fun v => (s.grant v.index.toNat).owner == some a)).map
              (fun v => .revoked v .preempted (t.effectFor [v.index.toNat]).frame)
            ++ if a = c.station then [.shifted h c.newCount (t.effectFor [i]).frame] else []) t)
        ∧ (∀ e, s.port.inProgress = some e →
            ∃ q : Quad, t.port = { s.port with inProgress := none, results := s.port.results ++ [q] }
              ∧ q.places e.opCode e.tag h (t.effectFor [i]))

/-- R20, R47, R76, R78, R80, R81: the commit of a RESIZE without victims. PLAN gives the grant the chosen slots and takes
the others of its slots away, every other entry and ACTIVE stay; the counter advances and dates the record, whose
requested count becomes the new count; its lease stays; the owner is handed SHIFTED and the result is OK. A grant whose
handle fails now, or that is DRAINING, is answered RETIRING and nothing is committed. (No further request waits.) -/
def Obligations.ResizesCommit : Prop :=
  ∀ (s : State) (e : Quad) (c : Context) (h : Handle) (i : Nat), s.ready → s.engine.context = some c →
    c.kind = .resize h → i = h.index.toNat → s.port.inProgress = some e → s.port.requests = [] →
    ((s.station c.station).state = .member ∨ (s.station c.station).state = .quiet) →
    ((s.handlePasses h = false ∨ (s.grant i).state = .draining) → ∃ (t : State) (q : Quad), exec .commitPoint s = .next t
        ∧ q.refuses e.opCode .retiring e.tag
        ∧ t = { s with engine := { s.engine with context := none }
                       port := { s.port with inProgress := none, results := s.port.results ++ [q] }
                       ints := s.ints.raise .result })
      ∧ (∀ slots : List Nat, c.outcome = .chosen slots [] → s.handlePasses h = true → (s.grant i).state ≠ .draining →
        (s.grant i).owner = some c.station → slots ≠ [] → slots.Nodup →
        (∀ n ∈ slots, n ∈ s.payload ∧ (s.planAt n = none ∨ s.planAt n = some i)) →
        (s.grant i).planCount = (s.planSlots i).length → (s.planSlots i).length ≤ (s.station c.station).planned →
        ∃ (t : State) (q : Quad), exec .commitPoint s = .next t
          ∧ (∀ n, t.planAt n = if n ∈ slots then some i else if n ∈ s.planSlots i then none else s.planAt n)
          ∧ t.map.active = s.map.active ∧ t.commitCounter = s.commitCounter + 1
          ∧ t.grant i = { s.grant i with
              state := (t.grant i).state, requested := c.newCount, planCount := slots.length
              commitSeq := s.commitCounter + 1 }
          ∧ ((s.grant i).activeCount = 0 → (t.grant i).state = .pending)
          ∧ ((s.grant i).activeCount ≠ 0 →
              (t.grant i).state = if t.planSlots i = s.activeSlots i then .live else .shifting)
          ∧ (∀ j, j ≠ i → t.grant j = s.grant j) ∧ t.freeQueue = s.freeQueue
          ∧ (t.station c.station).planned + (s.planSlots i).length = (s.station c.station).planned + slots.length
          ∧ (∀ a, a ≠ c.station → t.station a = s.station a)
          ∧ t.engine = { s.engine with context := none }
          ∧ t.port = { s.port with inProgress := none, results := s.port.results ++ [q] }
          ∧ q.places e.opCode e.tag h (t.effectFor [i])
          ∧ ((s.mailbox c.station).queue.length < 8 → (t.mailbox c.station).queue = (s.mailbox c.station).queue
              ++ [.shifted h c.newCount (t.effectFor [i]).frame]))

/-! ## The Request Port -/

/-- R165, R166: a request that the port takes at its post. A CREATE or RESIZE waits for the engine: the port is
IN_PROGRESS with it. An unknown op is answered BAD_REQUEST with the op and tag copied. Nothing else changes but the
staging words and the suspension of the station named, of 1..47, where RESUME is set (R114). -/
def Obligations.TakesAtThePort : Prop :=
  (∀ (s : State) (head : RequestHead) (f : CreateFields) (h : Handle) (n : BitVec 7), s.ready → s.portFree →
    exec (.create head f) s = .next { s.clearSuspension (createEntry head f) with
        port := { s.port with staging := createEntry head f, inProgress := some (createEntry head f) } }
      ∧ exec (.resize head h n) s = .next { s.clearSuspension (resizeEntry head h n) with
        port := { s.port with staging := resizeEntry head h n, inProgress := some (resizeEntry head h n) } })
    ∧ (∀ (s : State) (head : RequestHead) (op : BitVec 4), s.ready → s.portFree → op = 0 ∨ 13 ≤ op.toNat →
    ∃ q : Quad, q.refuses op .badRequest head.tag
      ∧ exec (.unknownOp head op) s = .next (s.answered (plainEntry op head) q))
    ∧ (∀ (s : State) (e : Quad),
    (e.resume = true → 1 ≤ e.station → e.station ≤ 47 →
        (s.clearSuspension e).station e.station = { s.station e.station with suspended := false }
          ∧ (∀ a, a ≠ e.station → (s.clearSuspension e).station a = s.station a)
          ∧ s.clearSuspension e = { s with stations := (s.clearSuspension e).stations })
      ∧ (e.resume = false ∨ e.station = 0 ∨ 48 ≤ e.station → s.clearSuspension e = s))

/-- R165, R192: reading the fields of the four words of a request gives back the request, for every request command. -/
def Obligations.RequestEntriesRoundTrip : Prop :=
  ∀ (c : Instr) (e : Quad), requestEntry c = some e → c.wellFormed = true → requestOf e = c

/-- R161, R162: a post while the port cannot take. Fewer than 16 entries: the staging words join the tail. 16 entries:
the post is discarded and REQ_OVERRUN set. A request command is the writing of its four words and that post, the model's
choice (log 10), so that RQPOST does what the command does whose words the staging words are, and for an op that the port
performs, whatever the bits of no field are (R165, R189). A write to RSPOP removes the head result and is ignored where
there is none; RSW0 to RSW3 read the head's words, 0 where there is none, and RSCNT counts (R163). A pop that frees a
result entry lets the head request be taken (R164). -/
def Obligations.PostsAndPops : Prop :=
  (∀ (s : State) (w : Word), s.ready →
    (s.port.requests.length < 16 → s.port.inProgress.isSome = true ∨ 32 ≤ s.port.results.length →
        exec (.rqpost w) s = .next { s with port := { s.port with requests := s.port.requests ++ [s.port.staging] } })
      ∧ (16 ≤ s.port.requests.length → exec (.rqpost w) s = .next { s with ints := s.ints.raise .reqOverrun }))
    ∧ (∀ (c : Instr) (e : Quad) (s : State), requestEntry c = some e → s.ready →
    (s.port.requests.length < 16 → s.port.inProgress.isSome = true ∨ 32 ≤ s.port.results.length →
        exec c s = .next { s with port := { s.port with staging := e, requests := s.port.requests ++ [e] } })
      ∧ (16 ≤ s.port.requests.length →
        exec c s = .next { s with port := { s.port with staging := e }, ints := s.ints.raise .reqOverrun }))
    ∧ (∀ (c : Instr) (e : Quad) (w : Word) (s : State), requestEntry c = some e → s.ready →
      exec (.rqpost w) { s with port := { s.port with staging := e } } = exec c s)
    ∧ (∀ (w : Word) (s : State), s.ready → s.portFree → s.port.staging.op ≠ .create → s.port.staging.op ≠ .resize →
      ∃ t, exec (requestOf s.port.staging) s = .next t
        ∧ exec (.rqpost w) s = .next { t with port := { t.port with staging := s.port.staging } })
    ∧ (∀ (s : State) (w : Word), s.ready →
    (s.port.results = [] → (s.registerRead 0x26 = 0 ∧ s.registerRead 0x27 = 0 ∧ s.registerRead 0x28 = 0
          ∧ s.registerRead 0x29 = 0 ∧ s.registerRead 0x2B = 0)
        ∧ (s.port.requests = [] ∨ s.port.inProgress.isSome = true → exec (.rspop w) s = .next s))
      ∧ (∀ q r, s.port.results = q :: r →
        (s.registerRead 0x26 = q.w0 ∧ s.registerRead 0x27 = q.w1 ∧ s.registerRead 0x28 = q.w2 ∧ s.registerRead 0x29 = q.w3
          ∧ s.registerRead 0x2B = BitVec.ofNat 32 (r.length + 1))
        ∧ (s.port.requests = [] ∨ s.port.inProgress.isSome = true →
            exec (.rspop w) s = .next { s with port := { s.port with results := r } })
        ∧ (∀ e es, s.port.requests = e :: es → s.port.inProgress = none → r.length < 32 → e.op = .create →
            exec (.rspop w) s = .next { s.clearSuspension e with
              port := { s.port with results := r, requests := es, inProgress := some e } })))

/-- R163, R164, R166: serving the heads. The port takes the head while it is IDLE with room for a result, each take doing
what the post of that entry at a port with no other does, with the entries behind it kept, and goes on until it cannot take.
An event that hands back a result (COMMIT_POINT, a take that refuses) or pops one does what it does with no request waiting,
and the requests that wait are then served in the same event; a post joins the tail first. -/
def Obligations.ThePortServesItsHeads : Prop :=
  ((∀ s : State, s.port.requests = [] ∨ s.port.inProgress.isSome = true ∨ 32 ≤ s.port.results.length → s.servePort = s)
      ∧ (∀ (s : State) (e : Quad) (es : List Quad), s.port.requests = e :: es → s.port.inProgress = none →
        s.port.results.length < 32 → s.servePort = (s.takeEntry e es).servePort)
      ∧ ∀ s : State, s.servePort.port.requests = [] ∨ s.servePort.port.inProgress.isSome = true
          ∨ 32 ≤ s.servePort.port.results.length)
    ∧ (∀ (s : State) (e : Quad) (es : List Quad) (w : Word) (x : Context), s.inReset = false → s.port.inProgress = none →
      s.port.results.length < 32 →
        ∃ v, exec (.rqpost w) { s with engine := { s.engine with context := some x }
                                       port := { s.port with staging := e, requests := [] } } = .next v
          ∧ s.takeEntry e es = { v with
              engine := s.engine, port := { v.port with staging := s.port.staging, requests := es } }
          ∧ (e.op = .create ∨ e.op = .resize → v.port.inProgress = some e ∧ v.port.results = s.port.results)
          ∧ (e.op ≠ .create → e.op ≠ .resize → v.port.inProgress = none
              ∧ ∃ q : Quad, v.port.results = s.port.results ++ [q]))
    ∧ (∀ (c : Instr) (s : State) (w : Word), c = .commitPoint ∨ c = .placementTake ∨ c = .rspop w → s.inReset = false →
      c = .placementTake ∨ s.takeDue = false → s.port.inProgress.isSome = true ∨ 32 ≤ s.port.results.length →
        ∃ v, exec c { s with port := { s.port with requests := [] } } = .next v ∧ v.port.requests = []
          ∧ exec c s = .next ({ v with port := { v.port with requests := s.port.requests } } : State).servePort)
    ∧ ∀ (s : State) (w : Word), s.ready → s.port.requests.length < 16 →
      exec (.rqpost w) s = .next
        ({ s with port := { s.port with requests := s.port.requests ++ [s.port.staging] } } : State).servePort

/-- R167: RELEASE. A handle that fails is answered STALE_HANDLE and a DRAINING grant RETIRING, and nothing else changes;
any other grant is retired RELEASED, and the result is OK with the handle, the effective frame and its epoch. -/
def Obligations.ReleaseRetires : Prop :=
  ∀ (s : State) (head : RequestHead) (h : Handle), s.ready → s.portFree →
    (s.handlePasses h = false → ∃ q : Quad, q.refuses 3 .staleHandle head.tag
        ∧ exec (.release head h) s = .next (s.answered (handleEntry 3 head h) q))
      ∧ (s.handlePasses h = true → (s.grant h.index.toNat).state = .draining → ∃ q : Quad, q.refuses 3 .retiring head.tag
        ∧ exec (.release head h) s = .next (s.answered (handleEntry 3 head h) q))
      ∧ (s.handlePasses h = true → s.canRetire h.index.toNat → ∃ (t : State) (q : Quad),
        exec (.release head h) s = .next t ∧ s.retiredTo h.index.toNat t
          ∧ q.places 3 head.tag h (t.effectFor [h.index.toNat])
          ∧ t.port = { s.port with staging := handleEntry 3 head h, results := s.port.results ++ [q] }
          ∧ t.ints.isSet .result = true ∧ t.ints.isFresh .result = true ∧ t.timer = s.timer ∧ t.engine = s.engine
          ∧ ∀ a, (s.grant h.index.toNat).owner = some a → (s.station a).state.present = true →
              (s.mailbox a).queue.length < 8 → (t.mailbox a).queue = (s.mailbox a).queue
                ++ [.revoked h .released (t.effectFor [h.index.toNat]).frame])

/-- R46, R168: RETIRE_ALL. A station of 48..63 is answered BAD_REQUEST; where no record qualifies the answer is OK with a
count of 0 and N; else every named record's PLAN slots are FREE, the record DRAINING or freed, every other entry and
record stays, each owner is told REVOKED RELEASED in ascending order of index, and the result carries the count of the
records named and the OPEN epoch's E if its list names one retired, else the SEALED epoch's, else N. -/
def Obligations.RetireAllRetires : Prop :=
  ∀ (s : State) (head : RequestHead) (named : List Nat), s.ready → s.portFree →
    named = (List.range 240).filter (fun i => (s.grant i).state.retirable
      && (head.station.toNat == 0 || (s.grant i).owner == some head.station.toNat)) →
    (48 ≤ head.station.toNat → ∃ q : Quad, q.refuses 7 .badRequest head.tag
        ∧ exec (.retireAll head) s = .next (s.answered (plainEntry 7 head) q))
      ∧ (head.station.toNat ≤ 47 → ∃ (t : State) (q : Quad), exec (.retireAll head) s = .next t
        ∧ q.headed 7 .ok 0 head.tag ∧ q.w1 = BitVec.ofNat 32 named.length
        ∧ t.port = { s.port with staging := plainEntry 7 head, results := s.port.results ++ [q] }
        ∧ (∀ n, t.planAt n = if named.any (fun i => (s.planSlots i).contains n) then none else s.planAt n)
        ∧ (∀ i, i ∉ named → t.grant i = s.grant i)
        ∧ ((∀ i ∈ named, s.canRetire i) → ∀ i ∈ named, s.drainsOrFrees i t)
        ∧ (∀ a, s.queues a ((named.filter (fun i => (s.grant i).owner == some a)).map
            (fun i => .revoked (s.handle i) .released (t.effectFor [i]).frame)) t)
        ∧ (∀ f k, q.w2 = BitVec.setWidth 32 f → q.w3 = epochField k →
          (∀ o, t.map.openEpoch = some o → named.any (fun i => o.names i) = true → f = o.effective ∧ k = some o.number)
            ∧ (∀ o, t.map.openEpoch.any (fun o => named.any (fun i => o.names i)) = false → t.map.sealedEpoch = some o →
                named.any (fun i => o.names i) = true → f = o.effective ∧ k = some o.number)
            ∧ (t.map.openEpoch.any (fun o => named.any (fun i => o.names i)) = false →
                t.map.sealedEpoch.any (fun o => named.any (fun i => o.names i)) = false →
                f = s.timer.nextFrame ∧ k = none))
        ∧ (q.w2.extractLsb' 16 16 = 0 ∧ q.w3.extractLsb' 9 23 = 0 ∧ (q.w3.getLsbD 8 = false → q.w3 = 0))
        ∧ t.map.active = s.map.active ∧ t.commitCounter = s.commitCounter ∧ t.engine = s.engine)
      ∧ (head.station.toNat ≤ 47 → named = [] →
        ∃ q : Quad, q.headed 7 .ok 0 head.tag ∧ q.w1 = 0 ∧ q.w2 = s.timer.nextFrame.setWidth 32 ∧ q.w3 = 0
          ∧ exec (.retireAll head) s = .next (s.answered (plainEntry 7 head) q))

/-- R93, R94, R169: RENEW at the port. STALE_HANDLE and RETIRING change nothing else; else the lease is the one given, or
the reload held, RENEWED is queued for the owner, and the result carries the handle and the remaining value. -/
def Obligations.RenewRequestsLoadTheLease : Prop :=
  ∀ (s : State) (head : RequestHead) (h : Handle) (given : Bool) (lease : BitVec 16), s.ready → s.portFree →
    (s.handlePasses h = false → ∃ q : Quad, q.refuses 4 .staleHandle head.tag
        ∧ exec (.renew head h given lease) s = .next (s.answered (renewEntry head h given lease) q))
      ∧ (s.handlePasses h = true → (s.grant h.index.toNat).state = .draining → ∃ q : Quad, q.refuses 4 .retiring head.tag
        ∧ exec (.renew head h given lease) s = .next (s.answered (renewEntry head h given lease) q))
      ∧ (s.handlePasses h = true → (s.grant h.index.toNat).state ≠ .draining →
        ∀ r, r = (if given then lease else (s.grant h.index.toNat).leaseReload) →
        ∃ (t : State) (q : Quad), exec (.renew head h given lease) s = .next t
          ∧ q.headed 4 .ok 0 head.tag ∧ q.w1 = handleWord h ∧ q.w2 = r.setWidth 32 ∧ q.w3 = 0
          ∧ t.port = { s.port with staging := renewEntry head h given lease, results := s.port.results ++ [q] }
          ∧ t.grant h.index.toNat = { s.grant h.index.toNat with
              leaseReload := r, leaseRemaining := r, leaseWarned := false }
          ∧ (∀ j, j ≠ h.index.toNat → t.grant j = s.grant j)
          ∧ (∀ a, (s.grant h.index.toNat).owner = some a → (s.station a).state.present = true →
              ((s.mailbox a).queue.length < 8 → (t.mailbox a).queue = (s.mailbox a).queue ++ [.renewed h r])
              ∧ (8 ≤ (s.mailbox a).queue.length → (t.mailbox a).queue = (s.mailbox a).queue.dropLast ++ [.syncLost]
                  ∧ (t.mailbox a).head = (s.mailbox a).head ∧ t.ints.isSet .noticeOverrun = true)
              ∧ ∀ b, b ≠ a → t.mailbox b = s.mailbox b)
          ∧ t = { s.clearSuspension (renewEntry head h given lease) with
                  grants := t.grants, mailboxes := t.mailboxes, port := t.port, ints := t.ints })

/-- R111, R170: SET_STATION. A station outside 1..47 or a quota above 960 is answered BAD_REQUEST. Else the three values
are written and the result reports the station's state; barring a station, where it was not barred, evicts it. R104,
R107, R110, R170: EVICT. A station outside 1..47 is answered BAD_REQUEST, an ABSENT or LEAVING one NOT_MEMBER. A JOINING
station goes ABSENT and a MEMBER or QUIET one LEAVING (or on to ABSENT), reason EVICTED, its queue empty. -/
def Obligations.SetStationAndEvict : Prop :=
  (∀ (s : State) (head : RequestHead) (quota : BitVec 10) (cls : BitVec 2) (barred : Bool), s.ready → s.portFree →
    (head.station = 0 ∨ 48 ≤ head.station.toNat ∨ 960 < quota.toNat → ∃ q : Quad, q.refuses 5 .badRequest head.tag
        ∧ exec (.setStation head quota cls barred) s = .next (s.answered (setStationEntry head quota cls barred) q))
      ∧ (1 ≤ head.station.toNat → head.station.toNat ≤ 47 → quota.toNat ≤ 960 →
        ∃ (t : State) (q : Quad), exec (.setStation head quota cls barred) s = .next t
          ∧ q.headed 5 .ok 0 head.tag ∧ q.w1 = (t.station head.station.toNat).state.code.setWidth 32 ∧ q.w2 = 0 ∧ q.w3 = 0
          ∧ t.port = { s.port with
              staging := setStationEntry head quota cls barred, results := s.port.results ++ [q] }
          ∧ (t.station head.station.toNat).quota = quota ∧ (t.station head.station.toNat).maxClass = cls
          ∧ (t.station head.station.toNat).barred = barred
          ∧ (barred = false ∨ (s.station head.station.toNat).barred = true
              ∨ (s.station head.station.toNat).state = .absent ∨ (s.station head.station.toNat).state = .leaving →
            (t.station head.station.toNat).state = (s.station head.station.toNat).state
              ∧ (∀ b, b ≠ head.station.toNat → t.station b = s.station b)
              ∧ t = { s.clearSuspension (setStationEntry head quota cls barred) with
                      stations := t.stations, port := t.port, ints := s.ints.raise .result })
          ∧ (barred = true → (s.station head.station.toNat).barred = false →
              (s.station head.station.toNat).state.present = true →
            ((t.station head.station.toNat).state = .leaving ∨ (t.station head.station.toNat).state = .absent)
              ∧ (t.station head.station.toNat).leaveReason = some .evicted
              ∧ (t.mailbox head.station.toNat).queue = [])))
    ∧ (∀ (s : State) (head : RequestHead), s.ready → s.portFree →
    (head.station = 0 ∨ 48 ≤ head.station.toNat → ∃ q : Quad, q.refuses 6 .badRequest head.tag
        ∧ exec (.evict head) s = .next (s.answered (plainEntry 6 head) q))
      ∧ (1 ≤ head.station.toNat → head.station.toNat ≤ 47 →
        ((s.station head.station.toNat).state = .absent ∨ (s.station head.station.toNat).state = .leaving →
          ∃ q : Quad, q.refuses 6 .notMember head.tag
            ∧ exec (.evict head) s = .next (s.answered (plainEntry 6 head) q))
        ∧ ((s.station head.station.toNat).state.present = true →
          ∃ (t : State) (q : Quad), exec (.evict head) s = .next t
            ∧ q.headed 6 .ok 0 head.tag ∧ q.w1 = (t.station head.station.toNat).state.code.setWidth 32 ∧ q.w2 = 0 ∧ q.w3 = 0
            ∧ t.port = { s.port with staging := plainEntry 6 head, results := s.port.results ++ [q] }
            ∧ (((t.station head.station.toNat).state = .leaving ∧ (t.station head.station.toNat).held ≠ 0)
                ∨ (t.station head.station.toNat).state = .absent)
            ∧ ((s.station head.station.toNat).state = .joining → (t.station head.station.toNat).state = .absent)
            ∧ (t.station head.station.toNat).leaveReason = some .evicted
            ∧ (t.mailbox head.station.toNat).queue = [] ∧ t.ints.isSet .station = true
            ∧ (∀ b, b ≠ head.station.toNat → t.station b = s.station b ∧ t.mailbox b = s.mailbox b)
            ∧ t.map.active = s.map.active ∧ t.commitCounter = s.commitCounter)))

/-! ## Lookups -/

/-- R171, R193: LOOKUP_GRANT answers the record's fields in their bits, or STALE_HANDLE, and changes nothing else.
R172, R193: LOOKUP_SLOT answers the slot's taint and its ACTIVE and PLAN owners, each a handle or FREE; a slot below 64 or
at or above L is answered BAD_REQUEST.
R174, R193: LIST_SLOTS answers the first six slots, ascending, from the start slot on, that the selected map gives the
grant, how many are listed, and whether more follow; STALE_HANDLE for a handle that fails. -/
def Obligations.GrantAndSlotLookupsReport : Prop :=
  (∀ (s : State) (head : RequestHead) (h : Handle), s.ready → s.portFree →
    ∃ q : Quad, exec (.lookupGrant head h) s = .next (s.answered (handleEntry 8 head h) q)
      ∧ (s.handlePasses h = false → q.refuses 8 .staleHandle head.tag)
      ∧ (s.handlePasses h = true → q.headed 8 .ok 0 head.tag ∧ ∀ g, g = s.grant h.index.toNat →
        (q.w1.extractLsb' 0 8 = g.faultCount ∧ q.w1.extractLsb' 8 6 = BitVec.ofNat 6 (g.requested - 1)
          ∧ q.w1.extractLsb' 14 6 = BitVec.ofNat 6 (g.owner.getD 0) ∧ q.w1.extractLsb' 20 5 = g.stream
          ∧ (g.state = .pending → q.w1.extractLsb' 25 3 = 2) ∧ (g.state = .live → q.w1.extractLsb' 25 3 = 3)
          ∧ (g.state = .shifting → q.w1.extractLsb' 25 3 = 4) ∧ (g.state = .draining → q.w1.extractLsb' 25 3 = 5)
          ∧ q.w1.extractLsb' 28 2 = g.cls ∧ Pattern.ofBits (q.w1.extractLsb' 30 2) = some g.pattern)
        ∧ (q.w2.extractLsb' 0 16 = g.tag ∧ q.w2.extractLsb' 16 7 = BitVec.ofNat 7 g.planCount
          ∧ q.w2.extractLsb' 23 7 = BitVec.ofNat 7 g.activeCount
          ∧ (q.w2.getLsbD 30 = true ↔ g.origin = .localBus) ∧ q.w2.getLsbD 31 = g.preemptible)
        ∧ (q.w3.extractLsb' 0 16 = g.leaseRemaining ∧ q.w3.extractLsb' 16 16 = g.commitSeq.setWidth 16)))
    ∧ (∀ (s : State) (head : RequestHead) (n : BitVec 10), s.ready → s.portFree →
    ∃ q : Quad, exec (.lookupSlot head n) s = .next (s.answered (lookupSlotEntry head n) q)
      ∧ (n.toNat < 64 ∨ s.timer.code.slots ≤ n.toNat → q.refuses 9 .badRequest head.tag)
      ∧ (64 ≤ n.toNat → n.toNat < s.timer.code.slots → q.headed 9 .ok 0 head.tag
        ∧ q.w1.extractLsb' 0 10 = n ∧ q.w1.extractLsb' 16 8 = s.taintAt n.toNat
        ∧ (s.activeAt n.toNat = none → q.w2 = 0x10000) ∧ (∀ i, s.activeAt n.toNat = some i → q.w2 = handleWord (s.handle i))
        ∧ (s.planAt n.toNat = none → q.w3 = 0x10000) ∧ (∀ i, s.planAt n.toNat = some i → q.w3 = handleWord (s.handle i))))
    ∧ (∀ (s : State) (head : RequestHead) (h : Handle) (start : BitVec 10) (plan : Bool), s.ready → s.portFree →
    ∃ q : Quad, exec (.listSlots head h start plan) s = .next (s.answered (listSlotsEntry head h start plan) q)
      ∧ (s.handlePasses h = false → q.refuses 11 .staleHandle head.tag)
      ∧ (s.handlePasses h = true → ∀ l, l = (List.range s.timer.code.slots).filter (fun n =>
            decide (64 ≤ n) && decide (start.toNat ≤ n)
              && (if plan then s.planAt n else s.activeAt n) == some h.index.toNat) →
        q.headed 11 .ok 0 head.tag ∧ q.w1.extractLsb' 0 3 = BitVec.ofNat 3 (min l.length 6)
          ∧ (q.w1.getLsbD 3 = true ↔ 6 < l.length) ∧ q.w1.getLsbD 4 = plan ∧ q.w1.extractLsb' 5 27 = 0
          ∧ (q.w2.extractLsb' 0 10 = BitVec.ofNat 10 (l.getD 0 0) ∧ q.w2.extractLsb' 10 10 = BitVec.ofNat 10 (l.getD 1 0)
            ∧ q.w2.extractLsb' 20 10 = BitVec.ofNat 10 (l.getD 2 0))
          ∧ (q.w3.extractLsb' 0 10 = BitVec.ofNat 10 (l.getD 3 0) ∧ q.w3.extractLsb' 10 10 = BitVec.ofNat 10 (l.getD 4 0)
            ∧ q.w3.extractLsb' 20 10 = BitVec.ofNat 10 (l.getD 5 0))))

/-! ## The register window -/

/-- R173, R193: LOOKUP_STATION answers the station's record, after the suspension clearing, and what the Decoder and the
Notice Unit hold for it.
R175, R193: CENSUS answers the free and the tainted slots, the records in use, the members, and each pending epoch. -/
def Obligations.StationAndCensusLookupsReport : Prop :=
  (∀ (s : State) (head : RequestHead), s.ready → s.portFree →
    ∃ q : Quad, exec (.lookupStation head) s = .next (s.answered (plainEntry 10 head) q)
      ∧ (head.station = 0 ∨ 48 ≤ head.station.toNat → q.refuses 10 .badRequest head.tag)
      ∧ (1 ≤ head.station.toNat → head.station.toNat ≤ 47 → q.headed 10 .ok 0 head.tag
        ∧ ∀ r k, r = s.station head.station.toNat → k = s.ask head.station.toNat →
          (q.w1.extractLsb' 0 3 = r.state.code ∧ q.w1.extractLsb' 3 3 = leaveReasonCode r.leaveReason
            ∧ q.w1.getLsbD 6 = r.barred ∧ q.w1.getLsbD 7 = (r.suspended && !head.resume)
            ∧ q.w1.extractLsb' 8 8 = r.missed ∧ q.w1.extractLsb' 16 10 = r.quota ∧ q.w1.extractLsb' 26 2 = r.maxClass
            ∧ q.w1.extractLsb' 28 4 = BitVec.ofNat 4 (s.mailbox head.station.toNat).queue.length)
          ∧ (q.w2.extractLsb' 0 8 = r.badWords ∧ q.w2.extractLsb' 8 8 = r.clashes
            ∧ q.w2.extractLsb' 16 5 = BitVec.ofNat 5 r.held ∧ q.w2.extractLsb' 22 10 = BitVec.ofNat 10 r.planned)
          ∧ (k.status = .none → q.w3.extractLsb' 0 2 = 0 ∧ q.w3.extractLsb' 4 4 = 0)
          ∧ (∀ x, k.status = .waiting x → q.w3.extractLsb' 0 2 = 1 ∧ q.w3.extractLsb' 4 4 = x)
          ∧ (∀ x, k.status = .inFlight x → q.w3.extractLsb' 0 2 = 2 ∧ q.w3.extractLsb' 4 4 = x)
          ∧ q.w3.getLsbD 8 = k.lastAnswered.isSome ∧ q.w3.extractLsb' 12 4 = k.lastAnswered.getD 0))
    ∧ (∀ (s : State) (head : RequestHead), s.ready → s.portFree →
    ∃ q : Quad, exec (.census head) s = .next (s.answered (plainEntry 12 head) q)
      ∧ q.headed 12 .ok (BitVec.ofNat 8 ((List.range 240).countP (fun i => (s.grant i).state != .free))) head.tag
      ∧ q.w1.extractLsb' 0 10 = BitVec.ofNat 10 (s.payload.countP (fun n => s.planAt n == none && s.taintAt n == 0))
      ∧ q.w1.extractLsb' 10 10 = BitVec.ofNat 10 (s.payload.countP (fun n => s.taintAt n != 0))
      ∧ q.w1.getLsbD 30 = s.map.sealedEpoch.isSome ∧ q.w1.getLsbD 31 = s.map.openEpoch.isSome
      ∧ q.w3.extractLsb' 26 6 = BitVec.ofNat 6 ((List.range 48).countP (fun a => decide (1 ≤ a)
          && ((s.station a).state == .member || (s.station a).state == .quiet)))
      ∧ (∀ e, s.map.sealedEpoch = some e → q.w1.extractLsb' 20 10 = BitVec.ofNat 10 e.changeCount
          ∧ q.w2.extractLsb' 0 16 = e.effective ∧ q.w2.extractLsb' 16 8 = e.number)
      ∧ (s.map.sealedEpoch = none → q.w1.extractLsb' 20 10 = 0 ∧ q.w2.extractLsb' 0 24 = 0)
      ∧ (∀ e, s.map.openEpoch = some e → q.w3.extractLsb' 16 10 = BitVec.ofNat 10 e.changeCount
          ∧ q.w3.extractLsb' 0 16 = e.effective ∧ q.w2.extractLsb' 24 8 = e.number)
      ∧ (s.map.openEpoch = none → q.w3.extractLsb' 0 26 = 0 ∧ q.w2.extractLsb' 24 8 = 0))

/-- R54, R101, R148, R159, R182: the judged configuration writes. An accepted write is held in its register; a refused
one leaves the register and sets CONFIG_REFUSED; neither does anything else. Bits outside the fields do not matter
(R180). R16: a FRAME_LENGTH write is accepted while STOPPED, with every record FREE and in the Free Record Queue, and no
epoch pending: the code is held, 3 as 2, and every taint cleared. Else it is refused. A write that the queue puts right
before the take of waiting work is taken first, so that the placement searches the new payload range (log 5). -/
def Obligations.ConfigurationWritesAreJudged : Prop :=
  (∀ (s : State) (w : Word), s.ready →
    exec (.epochLeadWrite w) s = .next (if s.map.openEpoch = none ∧ s.map.sealedEpoch = none
          ∧ (w.extractLsb' 0 8).toNat % 2 = 0 ∧ 4 ≤ (w.extractLsb' 0 8).toNat ∧ (w.extractLsb' 0 8).toNat ≤ 254 then
        { s with cfg := { s.cfg with epochLead := w.extractLsb' 0 8 } }
      else { s with ints := s.ints.raise .configRefused })
    ∧ exec (.presenceLimitsWrite w) s = .next (if 1 ≤ (w.extractLsb' 0 8).toNat
          ∧ (w.extractLsb' 0 8).toNat < (w.extractLsb' 8 8).toNat then
        { s with cfg := { s.cfg with quietAfter := w.extractLsb' 0 8, lostAfter := w.extractLsb' 8 8 } }
      else { s with ints := s.ints.raise .configRefused })
    ∧ exec (.noticeTimingWrite w) s = .next (if w.extractLsb' 0 4 ≠ 0 ∧ w.extractLsb' 8 4 ≠ 0 then
        { s with cfg := { s.cfg with retryInterval := w.extractLsb' 0 4, sendLimit := w.extractLsb' 8 4 } }
      else { s with ints := s.ints.raise .configRefused })
    ∧ exec (.faultLimitWrite w) s = .next (if w.extractLsb' 0 8 ≠ 0 then
        { s with cfg := { s.cfg with faultLimit := w.extractLsb' 0 8 } }
      else { s with ints := s.ints.raise .configRefused }))
    ∧ (∀ (s : State) (w : Word), s.readyOrBeforeTake →
    ((s.timer.timing = .stopped ∧ (∀ i, i < 240 → (s.grant i).state = .free) ∧ s.freeQueue.length = 240
        ∧ s.map.openEpoch = none ∧ s.map.sealedEpoch = none) →
      ∃ t, exec (.frameLengthWrite w) s = .next t ∧ (∀ n, t.taintAt n = 0)
        ∧ t.timer = { s.timer with code := (if w.extractLsb' 0 2 = 0 then .l256
            else if w.extractLsb' 0 2 = 1 then .l512 else .l1024) }
        ∧ t = { s with timer := t.timer, map := { s.map with taint := t.map.taint } })
    ∧ (¬ (s.timer.timing = .stopped ∧ (∀ i, i < 240 → (s.grant i).state = .free) ∧ s.freeQueue.length = 240
        ∧ s.map.openEpoch = none ∧ s.map.sealedEpoch = none) →
      exec (.frameLengthWrite w) s = .next { s with ints := s.ints.raise .configRefused }))

/-- R84, R158, R159, R161, R180, R183: the writes that are always accepted, and those that are ignored: read-only and
unassigned addresses.
The rows that write a register act as the write of its address (R16, R54, R101, R148, R158, R159, R161, R163, R185,
R186; log 18). -/
def Obligations.PlainRegisterWrites : Prop :=
  (∀ (s : State) (w : Word), s.ready →
    exec (.registerWrite 0x09 w) s = .next { s with cfg := { s.cfg with leaseWarn := w.extractLsb' 0 8 } }
    ∧ exec (.registerWrite 0x0A w) s = .next { s with cfg := { s.cfg with idleLimit := w.extractLsb' 0 8 } }
    ∧ exec (.registerWrite 0x0C w) s = .next { s with cfg := { s.cfg with taintFrames := w.extractLsb' 0 8 } }
    ∧ exec (.registerWrite 0x0D w) s = .next { s with cfg :=
        { s.cfg with preempt := w.getLsbD 0, suspendOnFault := w.getLsbD 1 } }
    ∧ (∀ k : Nat, 1 ≤ k → k ≤ 15 → ∃ t, exec (.registerWrite (BitVec.ofNat 6 (0x10 + k)) w) s = .next t
        ∧ t.registerRead (BitVec.ofNat 6 (0x10 + k)) = (w.extractLsb' 0 16).setWidth 32
        ∧ (∀ j : Nat, 1 ≤ j → j ≤ 15 → j ≠ k →
            t.registerRead (BitVec.ofNat 6 (0x10 + j)) = s.registerRead (BitVec.ofNat 6 (0x10 + j)))
        ∧ t = { s with cfg := { s.cfg with leaseCodes := t.cfg.leaseCodes } })
    ∧ exec (.registerWrite 0x20 w) s = .next { s with port := { s.port with staging := { s.port.staging with w0 := w } } }
    ∧ exec (.registerWrite 0x21 w) s = .next { s with port := { s.port with staging := { s.port.staging with w1 := w } } }
    ∧ exec (.registerWrite 0x22 w) s = .next { s with port := { s.port with staging := { s.port.staging with w2 := w } } }
    ∧ exec (.registerWrite 0x23 w) s = .next { s with port := { s.port with staging := { s.port.staging with w3 := w } } }
    ∧ (∀ addr : BitVec 6, addr = 0x00 ∨ addr = 0x02 ∨ addr = 0x03 ∨ addr = 0x04 ∨ addr = 0x25 ∨ addr = 0x26 ∨ addr = 0x27
        ∨ addr = 0x28 ∨ addr = 0x29 ∨ 0x2B ≤ addr.toNat → exec (.registerWrite addr w) s = .next s)
    ∧ exec (.intrusionCountWrite w) s = .next { s with intrusions := 0 })
    ∧ (∀ (s : State) (w : Word),
    exec (.registerWrite 0x05 w) s = exec (.frameLengthWrite w) s
    ∧ exec (.registerWrite 0x06 w) s = exec (.epochLeadWrite w) s
    ∧ exec (.registerWrite 0x07 w) s = exec (.presenceLimitsWrite w) s
    ∧ exec (.registerWrite 0x08 w) s = exec (.noticeTimingWrite w) s
    ∧ exec (.registerWrite 0x0B w) s = exec (.faultLimitWrite w) s
    ∧ exec (.registerWrite 0x0E w) s = exec (.intFlagsWrite w) s
    ∧ exec (.registerWrite 0x0F w) s = exec (.intEnableWrite w) s
    ∧ exec (.registerWrite 0x10 w) s = exec (.intrusionCountWrite w) s
    ∧ exec (.registerWrite 0x24 w) s = exec (.rqpost w) s
    ∧ exec (.registerWrite 0x2A w) s = exec (.rspop w) s)

/-- R179 to R181: what a read of each word address returns: the identity, the two words of STATUS field by field,
CONTROL's RUN bit, every configuration register, INT_FLAGS, INT_ENABLE, INTRUSION_COUNT, the staging words, the free
request entries; bits of no field, WO and unassigned addresses read 0 (RSW0 to RSW3 and RSCNT are in PostsAndPops). The
queues are within their limits. A read access returns the word as the register stands, after any take due (log 9), and
none is taken while RESETn is LOW (R178, R187). -/
def Obligations.RegisterReads : Prop :=
  (∀ (s : State) (addr : BitVec 6), (s.inReset = true → s.busRead addr = none)
      ∧ (s.inReset = false → s.busRead addr = some (s.catchUp.registerRead addr))
      ∧ (s.ready → s.busRead addr = some (s.registerRead addr)))
    ∧ ∀ s : State, s.registerRead 0x00 = 0x3A747201
    ∧ (∀ addr : BitVec 6, addr = 0x24 ∨ addr = 0x2A ∨ 0x2C ≤ addr.toNat → s.registerRead addr = 0)
    ∧ ((s.registerRead 0x02).getLsbD 0 = true ↔ s.timer.timing ≠ .stopped)
    ∧ (s.timer.request = .none → (s.registerRead 0x02).extractLsb' 1 2 = 0)
    ∧ (s.timer.request = .start → (s.registerRead 0x02).extractLsb' 1 2 = 1)
    ∧ (s.timer.request = .stop → (s.registerRead 0x02).extractLsb' 1 2 = 2)
    ∧ (s.registerRead 0x02).extractLsb' 3 2 = s.timer.code.bits ∧ s.registerRead 0x05 = s.timer.code.bits.setWidth 32
    ∧ (s.registerRead 0x02).getLsbD 5 = s.map.openEpoch.isSome ∧ (s.registerRead 0x02).getLsbD 6 = s.map.sealedEpoch.isSome
    ∧ (s.registerRead 0x02).getLsbD 7 = s.port.inProgress.isSome
    ∧ (s.registerRead 0x02).extractLsb' 8 8 = s.map.openEpoch.elim 0 Epoch.number
    ∧ (s.registerRead 0x02).extractLsb' 16 8 = s.map.sealedEpoch.elim 0 Epoch.number
    ∧ (s.registerRead 0x02).extractLsb' 24 8 = 0
    ∧ (s.port.requests.length ≤ 16 → s.port.results.length ≤ 32 → s.askQueue.length ≤ 47 →
        ((s.registerRead 0x03).extractLsb' 0 5).toNat = s.port.requests.length
          ∧ ((s.registerRead 0x03).extractLsb' 5 6).toNat = s.port.results.length
          ∧ ((s.registerRead 0x03).extractLsb' 11 6).toNat = s.askQueue.length
          ∧ (s.registerRead 0x03).getLsbD 17 = s.engine.context.isSome
          ∧ (s.registerRead 0x25).toNat = 16 - s.port.requests.length)
    ∧ (s.registerRead 0x03).extractLsb' 18 14 = 0 ∧ s.registerRead 0x01 = (if s.timer.runBit then 1 else 0)
    ∧ s.registerRead 0x04 = s.timer.fn.setWidth 32 ∧ s.registerRead 0x06 = s.cfg.epochLead.setWidth 32
    ∧ (s.registerRead 0x07).extractLsb' 0 8 = s.cfg.quietAfter ∧ (s.registerRead 0x07).extractLsb' 8 8 = s.cfg.lostAfter
    ∧ (s.registerRead 0x07).extractLsb' 16 16 = 0 ∧ (s.registerRead 0x08).extractLsb' 4 4 = 0
    ∧ (s.registerRead 0x08).extractLsb' 12 20 = 0
    ∧ (s.registerRead 0x08).extractLsb' 0 4 = s.cfg.retryInterval ∧ (s.registerRead 0x08).extractLsb' 8 4 = s.cfg.sendLimit
    ∧ s.registerRead 0x09 = s.cfg.leaseWarn.setWidth 32 ∧ s.registerRead 0x0A = s.cfg.idleLimit.setWidth 32
    ∧ s.registerRead 0x0B = s.cfg.faultLimit.setWidth 32 ∧ s.registerRead 0x0C = s.cfg.taintFrames.setWidth 32
    ∧ (s.registerRead 0x0D).getLsbD 0 = s.cfg.preempt ∧ (s.registerRead 0x0D).getLsbD 1 = s.cfg.suspendOnFault
    ∧ (s.registerRead 0x0D).extractLsb' 2 30 = 0
    ∧ (∀ (k : Fin 15), s.registerRead (BitVec.ofNat 6 (0x11 + k.val)) = (s.cfg.leaseCodes[k]).setWidth 32)
    ∧ (s.registerRead 0x20 = s.port.staging.w0 ∧ s.registerRead 0x21 = s.port.staging.w1
      ∧ s.registerRead 0x22 = s.port.staging.w2 ∧ s.registerRead 0x23 = s.port.staging.w3)
    ∧ s.registerRead 0x0E = s.ints.flags.setWidth 32 ∧ s.registerRead 0x0F = s.ints.enable.setWidth 32
    ∧ s.registerRead 0x10 = s.intrusions.setWidth 32

/-! ## Invariants -/

/-- R185: a read of INT_FLAGS returns the flags and ends every fresh marker; a write clears the flags whose bit is 1 and
whose marker is no, and touches no marker. A cause and a write, or a cause and a read, in either order.
R184, R186: a write to INT_ENABLE sets all nine enables and no flag; IRQn is LOW while a flag and its enable are both 1,
and HIGH otherwise, in reset and after it. A cause sets its flag and its marker and no other. -/
def Obligations.InterruptFlags : Prop :=
  ((∀ s : State, s.ready → exec .intFlagsRead s =
      .next { s with readData := s.ints.flags.setWidth 32, ints := { s.ints with fresh := 0 } })
    ∧ (∀ (s : State) (w : Word), s.ready → ∃ t, exec (.intFlagsWrite w) s = .next t ∧ t.ints.fresh = s.ints.fresh
        ∧ (∀ f : Flag, t.ints.isSet f = (s.ints.isSet f && !(w.getLsbD f.bit && !s.ints.isFresh f)))
        ∧ t = { s with ints := { s.ints with flags := t.ints.flags } })
    ∧ (∀ (x : Interrupts) (f : Flag) (w : BitVec 9), w.getLsbD f.bit = true →
        ((x.raise f).clear w).isSet f = true ∧ ((x.clear w).raise f).isSet f = true
          ∧ ((x.raise f).clear w).isFresh f = true ∧ ((x.clear w).raise f).isFresh f = true
          ∧ (((x.afterRead).raise f).clear w).isSet f = true
          ∧ (x.raise f).afterRead.isSet f = true ∧ ((x.raise f).afterRead.clear w).isSet f = false))
    ∧ ((∀ (s : State) (w : Word), s.ready → exec (.intEnableWrite w) s =
      .next { s with ints := { s.ints with enable := w.extractLsb' 0 9 } })
    ∧ (∀ s : State, s.inReset = true → s.irqn = true)
    ∧ (∀ s : State, s.ready → (s.irqn = false ↔ ∃ f : Flag, s.ints.isSet f = true ∧ s.ints.enable.getLsbD f.bit = true))
    ∧ (∀ (x : Interrupts) (f g : Flag), (x.raise f).isSet f = true ∧ (x.raise f).isFresh f = true
        ∧ (g ≠ f → (x.raise f).isSet g = x.isSet g ∧ (x.raise f).isFresh g = x.isFresh g)
        ∧ (x.raise f).enable = x.enable)
    ∧ (State.reset.irqn = true ∧ State.reset.ints.enable = 0)
    ∧ ∀ (s t : State), exec .deviceReset s = .next t → t.irqn = true ∧ t.ints.enable = 0)

/-- Every step keeps the configuration registers at values that the writes accept (R54, R101, R148, R159), the Frame
Timer legal (R3), the request queue within 16 entries and the result queue within 32 with room for the request in
progress (R162), each notice queue within 8 (R135), and the downlink words within their sixteen slots and of odd parity
(R147, R189). -/
def Obligations.TheStateStaysLegal : Prop :=
  ∀ s t : State, s.legal → step s = .next t → t.legal

/-- Every step keeps every table in its one canonical form (log 21). -/
def Obligations.TablesStayCanonical : Prop := ∀ s t : State, s.canonical → step s = .next t → t.canonical

/-- R35, R40: PLAN is ACTIVE with the SEALED list and then the OPEN list applied, and every change waits against the owner
it was recorded from: every step keeps it. -/
def Obligations.PlanFollowsActive : Prop := ∀ s t : State, s.map.follows → step s = .next t → t.map.follows

/-- R57, R73: every step keeps the placement in flight legal: as many slots as it is placed to, at most four victims. -/
def Obligations.PlacementStaysLegal : Prop := ∀ s t : State, s.engine.legal → step s = .next t → t.engine.legal

/-- Every step keeps the books in agreement: planCount and activeCount are the numbers of map entries (R19); only payload
slots are named, for records in use; every record stands in the state derived for it (R23, R25); the Free Record Queue
holds every FREE record exactly once (R27, R30); held records, at most 16, and planned slots are the sums over the
station's records (R115); every record in use has an owner that is MEMBER, QUIET or LEAVING (R108); a new grant in
placement is a PLACING record (R18); PLAN follows ACTIVE (R40). -/
def Obligations.TheBooksAgree : Prop := ∀ s t : State, s.booksAgree → step s = .next t → t.booksAgree

/-- Every invariant above holds after reset. -/
def Obligations.InvariantsHoldAfterReset : Prop :=
  State.reset.legal ∧ State.reset.canonical ∧ State.reset.map.follows ∧ State.reset.engine.legal ∧ State.reset.booksAgree
end

