-- ==== Sys2Proof/Laws/State.lean ====
section
/-! SUPPORT. One lemma a field an update: what each named write of Machine/Ops.lean leaves and gives. -/

namespace Sys2Proof.Machine.State

variable (s : State)

/-! ## putGrant -/

@[simp] theorem inReset_putGrant (i : Nat) (g : Grant) : (s.putGrant i g).inReset = s.inReset := rfl
@[simp] theorem timer_putGrant (i : Nat) (g : Grant) : (s.putGrant i g).timer = s.timer := rfl
@[simp] theorem cfg_putGrant (i : Nat) (g : Grant) : (s.putGrant i g).cfg = s.cfg := rfl
@[simp] theorem grants_putGrant (i : Nat) (g : Grant) : (s.putGrant i g).grants = s.grants.put (Grant.freeWith 0) i g := rfl
@[simp] theorem freeQueue_putGrant (i : Nat) (g : Grant) : (s.putGrant i g).freeQueue = s.freeQueue := rfl
@[simp] theorem commitCounter_putGrant (i : Nat) (g : Grant) : (s.putGrant i g).commitCounter = s.commitCounter := rfl
@[simp] theorem map_putGrant (i : Nat) (g : Grant) : (s.putGrant i g).map = s.map := rfl
@[simp] theorem engine_putGrant (i : Nat) (g : Grant) : (s.putGrant i g).engine = s.engine := rfl
@[simp] theorem stations_putGrant (i : Nat) (g : Grant) : (s.putGrant i g).stations = s.stations := rfl
@[simp] theorem asks_putGrant (i : Nat) (g : Grant) : (s.putGrant i g).asks = s.asks := rfl
@[simp] theorem askQueue_putGrant (i : Nat) (g : Grant) : (s.putGrant i g).askQueue = s.askQueue := rfl
@[simp] theorem mailboxes_putGrant (i : Nat) (g : Grant) : (s.putGrant i g).mailboxes = s.mailboxes := rfl
@[simp] theorem arbiterPointer_putGrant (i : Nat) (g : Grant) : (s.putGrant i g).arbiterPointer = s.arbiterPointer := rfl
@[simp] theorem downlink_putGrant (i : Nat) (g : Grant) : (s.putGrant i g).downlink = s.downlink := rfl
@[simp] theorem intrusions_putGrant (i : Nat) (g : Grant) : (s.putGrant i g).intrusions = s.intrusions := rfl
@[simp] theorem port_putGrant (i : Nat) (g : Grant) : (s.putGrant i g).port = s.port := rfl
@[simp] theorem ints_putGrant (i : Nat) (g : Grant) : (s.putGrant i g).ints = s.ints := rfl
@[simp] theorem readData_putGrant (i : Nat) (g : Grant) : (s.putGrant i g).readData = s.readData := rfl
@[simp] theorem pending_putGrant (i : Nat) (g : Grant) : (s.putGrant i g).pending = s.pending := rfl

/-! ## updGrant -/

@[simp] theorem inReset_updGrant (i : Nat) (f : Grant → Grant) : (s.updGrant i f).inReset = s.inReset := rfl
@[simp] theorem timer_updGrant (i : Nat) (f : Grant → Grant) : (s.updGrant i f).timer = s.timer := rfl
@[simp] theorem cfg_updGrant (i : Nat) (f : Grant → Grant) : (s.updGrant i f).cfg = s.cfg := rfl
@[simp] theorem grants_updGrant (i : Nat) (f : Grant → Grant) : (s.updGrant i f).grants = s.grants.put (Grant.freeWith 0) i (f (s.grant i)) := rfl
@[simp] theorem freeQueue_updGrant (i : Nat) (f : Grant → Grant) : (s.updGrant i f).freeQueue = s.freeQueue := rfl
@[simp] theorem commitCounter_updGrant (i : Nat) (f : Grant → Grant) : (s.updGrant i f).commitCounter = s.commitCounter := rfl
@[simp] theorem map_updGrant (i : Nat) (f : Grant → Grant) : (s.updGrant i f).map = s.map := rfl
@[simp] theorem engine_updGrant (i : Nat) (f : Grant → Grant) : (s.updGrant i f).engine = s.engine := rfl
@[simp] theorem stations_updGrant (i : Nat) (f : Grant → Grant) : (s.updGrant i f).stations = s.stations := rfl
@[simp] theorem asks_updGrant (i : Nat) (f : Grant → Grant) : (s.updGrant i f).asks = s.asks := rfl
@[simp] theorem askQueue_updGrant (i : Nat) (f : Grant → Grant) : (s.updGrant i f).askQueue = s.askQueue := rfl
@[simp] theorem mailboxes_updGrant (i : Nat) (f : Grant → Grant) : (s.updGrant i f).mailboxes = s.mailboxes := rfl
@[simp] theorem arbiterPointer_updGrant (i : Nat) (f : Grant → Grant) : (s.updGrant i f).arbiterPointer = s.arbiterPointer := rfl
@[simp] theorem downlink_updGrant (i : Nat) (f : Grant → Grant) : (s.updGrant i f).downlink = s.downlink := rfl
@[simp] theorem intrusions_updGrant (i : Nat) (f : Grant → Grant) : (s.updGrant i f).intrusions = s.intrusions := rfl
@[simp] theorem port_updGrant (i : Nat) (f : Grant → Grant) : (s.updGrant i f).port = s.port := rfl
@[simp] theorem ints_updGrant (i : Nat) (f : Grant → Grant) : (s.updGrant i f).ints = s.ints := rfl
@[simp] theorem readData_updGrant (i : Nat) (f : Grant → Grant) : (s.updGrant i f).readData = s.readData := rfl
@[simp] theorem pending_updGrant (i : Nat) (f : Grant → Grant) : (s.updGrant i f).pending = s.pending := rfl

/-! ## updStation -/

@[simp] theorem inReset_updStation (a : Nat) (f : Station → Station) : (s.updStation a f).inReset = s.inReset := rfl
@[simp] theorem timer_updStation (a : Nat) (f : Station → Station) : (s.updStation a f).timer = s.timer := rfl
@[simp] theorem cfg_updStation (a : Nat) (f : Station → Station) : (s.updStation a f).cfg = s.cfg := rfl
@[simp] theorem grants_updStation (a : Nat) (f : Station → Station) : (s.updStation a f).grants = s.grants := rfl
@[simp] theorem freeQueue_updStation (a : Nat) (f : Station → Station) : (s.updStation a f).freeQueue = s.freeQueue := rfl
@[simp] theorem commitCounter_updStation (a : Nat) (f : Station → Station) : (s.updStation a f).commitCounter = s.commitCounter := rfl
@[simp] theorem map_updStation (a : Nat) (f : Station → Station) : (s.updStation a f).map = s.map := rfl
@[simp] theorem engine_updStation (a : Nat) (f : Station → Station) : (s.updStation a f).engine = s.engine := rfl
@[simp] theorem stations_updStation (a : Nat) (f : Station → Station) : (s.updStation a f).stations = s.stations.put Station.fresh a (f (s.station a)) := rfl
@[simp] theorem asks_updStation (a : Nat) (f : Station → Station) : (s.updStation a f).asks = s.asks := rfl
@[simp] theorem askQueue_updStation (a : Nat) (f : Station → Station) : (s.updStation a f).askQueue = s.askQueue := rfl
@[simp] theorem mailboxes_updStation (a : Nat) (f : Station → Station) : (s.updStation a f).mailboxes = s.mailboxes := rfl
@[simp] theorem arbiterPointer_updStation (a : Nat) (f : Station → Station) : (s.updStation a f).arbiterPointer = s.arbiterPointer := rfl
@[simp] theorem downlink_updStation (a : Nat) (f : Station → Station) : (s.updStation a f).downlink = s.downlink := rfl
@[simp] theorem intrusions_updStation (a : Nat) (f : Station → Station) : (s.updStation a f).intrusions = s.intrusions := rfl
@[simp] theorem port_updStation (a : Nat) (f : Station → Station) : (s.updStation a f).port = s.port := rfl
@[simp] theorem ints_updStation (a : Nat) (f : Station → Station) : (s.updStation a f).ints = s.ints := rfl
@[simp] theorem readData_updStation (a : Nat) (f : Station → Station) : (s.updStation a f).readData = s.readData := rfl
@[simp] theorem pending_updStation (a : Nat) (f : Station → Station) : (s.updStation a f).pending = s.pending := rfl

/-! ## updAsk -/

@[simp] theorem inReset_updAsk (a : Nat) (f : AskRecord → AskRecord) : (s.updAsk a f).inReset = s.inReset := rfl
@[simp] theorem timer_updAsk (a : Nat) (f : AskRecord → AskRecord) : (s.updAsk a f).timer = s.timer := rfl
@[simp] theorem cfg_updAsk (a : Nat) (f : AskRecord → AskRecord) : (s.updAsk a f).cfg = s.cfg := rfl
@[simp] theorem grants_updAsk (a : Nat) (f : AskRecord → AskRecord) : (s.updAsk a f).grants = s.grants := rfl
@[simp] theorem freeQueue_updAsk (a : Nat) (f : AskRecord → AskRecord) : (s.updAsk a f).freeQueue = s.freeQueue := rfl
@[simp] theorem commitCounter_updAsk (a : Nat) (f : AskRecord → AskRecord) : (s.updAsk a f).commitCounter = s.commitCounter := rfl
@[simp] theorem map_updAsk (a : Nat) (f : AskRecord → AskRecord) : (s.updAsk a f).map = s.map := rfl
@[simp] theorem engine_updAsk (a : Nat) (f : AskRecord → AskRecord) : (s.updAsk a f).engine = s.engine := rfl
@[simp] theorem stations_updAsk (a : Nat) (f : AskRecord → AskRecord) : (s.updAsk a f).stations = s.stations := rfl
@[simp] theorem asks_updAsk (a : Nat) (f : AskRecord → AskRecord) : (s.updAsk a f).asks = s.asks.put AskRecord.fresh a (f (s.ask a)) := rfl
@[simp] theorem askQueue_updAsk (a : Nat) (f : AskRecord → AskRecord) : (s.updAsk a f).askQueue = s.askQueue := rfl
@[simp] theorem mailboxes_updAsk (a : Nat) (f : AskRecord → AskRecord) : (s.updAsk a f).mailboxes = s.mailboxes := rfl
@[simp] theorem arbiterPointer_updAsk (a : Nat) (f : AskRecord → AskRecord) : (s.updAsk a f).arbiterPointer = s.arbiterPointer := rfl
@[simp] theorem downlink_updAsk (a : Nat) (f : AskRecord → AskRecord) : (s.updAsk a f).downlink = s.downlink := rfl
@[simp] theorem intrusions_updAsk (a : Nat) (f : AskRecord → AskRecord) : (s.updAsk a f).intrusions = s.intrusions := rfl
@[simp] theorem port_updAsk (a : Nat) (f : AskRecord → AskRecord) : (s.updAsk a f).port = s.port := rfl
@[simp] theorem ints_updAsk (a : Nat) (f : AskRecord → AskRecord) : (s.updAsk a f).ints = s.ints := rfl
@[simp] theorem readData_updAsk (a : Nat) (f : AskRecord → AskRecord) : (s.updAsk a f).readData = s.readData := rfl
@[simp] theorem pending_updAsk (a : Nat) (f : AskRecord → AskRecord) : (s.updAsk a f).pending = s.pending := rfl

/-! ## updMailbox -/

@[simp] theorem inReset_updMailbox (a : Nat) (f : Mailbox → Mailbox) : (s.updMailbox a f).inReset = s.inReset := rfl
@[simp] theorem timer_updMailbox (a : Nat) (f : Mailbox → Mailbox) : (s.updMailbox a f).timer = s.timer := rfl
@[simp] theorem cfg_updMailbox (a : Nat) (f : Mailbox → Mailbox) : (s.updMailbox a f).cfg = s.cfg := rfl
@[simp] theorem grants_updMailbox (a : Nat) (f : Mailbox → Mailbox) : (s.updMailbox a f).grants = s.grants := rfl
@[simp] theorem freeQueue_updMailbox (a : Nat) (f : Mailbox → Mailbox) : (s.updMailbox a f).freeQueue = s.freeQueue := rfl
@[simp] theorem commitCounter_updMailbox (a : Nat) (f : Mailbox → Mailbox) : (s.updMailbox a f).commitCounter = s.commitCounter := rfl
@[simp] theorem map_updMailbox (a : Nat) (f : Mailbox → Mailbox) : (s.updMailbox a f).map = s.map := rfl
@[simp] theorem engine_updMailbox (a : Nat) (f : Mailbox → Mailbox) : (s.updMailbox a f).engine = s.engine := rfl
@[simp] theorem stations_updMailbox (a : Nat) (f : Mailbox → Mailbox) : (s.updMailbox a f).stations = s.stations := rfl
@[simp] theorem asks_updMailbox (a : Nat) (f : Mailbox → Mailbox) : (s.updMailbox a f).asks = s.asks := rfl
@[simp] theorem askQueue_updMailbox (a : Nat) (f : Mailbox → Mailbox) : (s.updMailbox a f).askQueue = s.askQueue := rfl
@[simp] theorem mailboxes_updMailbox (a : Nat) (f : Mailbox → Mailbox) : (s.updMailbox a f).mailboxes = s.mailboxes.put Mailbox.fresh a (f (s.mailbox a)) := rfl
@[simp] theorem arbiterPointer_updMailbox (a : Nat) (f : Mailbox → Mailbox) : (s.updMailbox a f).arbiterPointer = s.arbiterPointer := rfl
@[simp] theorem downlink_updMailbox (a : Nat) (f : Mailbox → Mailbox) : (s.updMailbox a f).downlink = s.downlink := rfl
@[simp] theorem intrusions_updMailbox (a : Nat) (f : Mailbox → Mailbox) : (s.updMailbox a f).intrusions = s.intrusions := rfl
@[simp] theorem port_updMailbox (a : Nat) (f : Mailbox → Mailbox) : (s.updMailbox a f).port = s.port := rfl
@[simp] theorem ints_updMailbox (a : Nat) (f : Mailbox → Mailbox) : (s.updMailbox a f).ints = s.ints := rfl
@[simp] theorem readData_updMailbox (a : Nat) (f : Mailbox → Mailbox) : (s.updMailbox a f).readData = s.readData := rfl
@[simp] theorem pending_updMailbox (a : Nat) (f : Mailbox → Mailbox) : (s.updMailbox a f).pending = s.pending := rfl

/-! ## updMap -/

@[simp] theorem inReset_updMap (f : SlotMap → SlotMap) : (s.updMap f).inReset = s.inReset := rfl
@[simp] theorem timer_updMap (f : SlotMap → SlotMap) : (s.updMap f).timer = s.timer := rfl
@[simp] theorem cfg_updMap (f : SlotMap → SlotMap) : (s.updMap f).cfg = s.cfg := rfl
@[simp] theorem grants_updMap (f : SlotMap → SlotMap) : (s.updMap f).grants = s.grants := rfl
@[simp] theorem freeQueue_updMap (f : SlotMap → SlotMap) : (s.updMap f).freeQueue = s.freeQueue := rfl
@[simp] theorem commitCounter_updMap (f : SlotMap → SlotMap) : (s.updMap f).commitCounter = s.commitCounter := rfl
@[simp] theorem map_updMap (f : SlotMap → SlotMap) : (s.updMap f).map = f s.map := rfl
@[simp] theorem engine_updMap (f : SlotMap → SlotMap) : (s.updMap f).engine = s.engine := rfl
@[simp] theorem stations_updMap (f : SlotMap → SlotMap) : (s.updMap f).stations = s.stations := rfl
@[simp] theorem asks_updMap (f : SlotMap → SlotMap) : (s.updMap f).asks = s.asks := rfl
@[simp] theorem askQueue_updMap (f : SlotMap → SlotMap) : (s.updMap f).askQueue = s.askQueue := rfl
@[simp] theorem mailboxes_updMap (f : SlotMap → SlotMap) : (s.updMap f).mailboxes = s.mailboxes := rfl
@[simp] theorem arbiterPointer_updMap (f : SlotMap → SlotMap) : (s.updMap f).arbiterPointer = s.arbiterPointer := rfl
@[simp] theorem downlink_updMap (f : SlotMap → SlotMap) : (s.updMap f).downlink = s.downlink := rfl
@[simp] theorem intrusions_updMap (f : SlotMap → SlotMap) : (s.updMap f).intrusions = s.intrusions := rfl
@[simp] theorem port_updMap (f : SlotMap → SlotMap) : (s.updMap f).port = s.port := rfl
@[simp] theorem ints_updMap (f : SlotMap → SlotMap) : (s.updMap f).ints = s.ints := rfl
@[simp] theorem readData_updMap (f : SlotMap → SlotMap) : (s.updMap f).readData = s.readData := rfl
@[simp] theorem pending_updMap (f : SlotMap → SlotMap) : (s.updMap f).pending = s.pending := rfl

/-! ## updPort -/

@[simp] theorem inReset_updPort (f : Port → Port) : (s.updPort f).inReset = s.inReset := rfl
@[simp] theorem timer_updPort (f : Port → Port) : (s.updPort f).timer = s.timer := rfl
@[simp] theorem cfg_updPort (f : Port → Port) : (s.updPort f).cfg = s.cfg := rfl
@[simp] theorem grants_updPort (f : Port → Port) : (s.updPort f).grants = s.grants := rfl
@[simp] theorem freeQueue_updPort (f : Port → Port) : (s.updPort f).freeQueue = s.freeQueue := rfl
@[simp] theorem commitCounter_updPort (f : Port → Port) : (s.updPort f).commitCounter = s.commitCounter := rfl
@[simp] theorem map_updPort (f : Port → Port) : (s.updPort f).map = s.map := rfl
@[simp] theorem engine_updPort (f : Port → Port) : (s.updPort f).engine = s.engine := rfl
@[simp] theorem stations_updPort (f : Port → Port) : (s.updPort f).stations = s.stations := rfl
@[simp] theorem asks_updPort (f : Port → Port) : (s.updPort f).asks = s.asks := rfl
@[simp] theorem askQueue_updPort (f : Port → Port) : (s.updPort f).askQueue = s.askQueue := rfl
@[simp] theorem mailboxes_updPort (f : Port → Port) : (s.updPort f).mailboxes = s.mailboxes := rfl
@[simp] theorem arbiterPointer_updPort (f : Port → Port) : (s.updPort f).arbiterPointer = s.arbiterPointer := rfl
@[simp] theorem downlink_updPort (f : Port → Port) : (s.updPort f).downlink = s.downlink := rfl
@[simp] theorem intrusions_updPort (f : Port → Port) : (s.updPort f).intrusions = s.intrusions := rfl
@[simp] theorem port_updPort (f : Port → Port) : (s.updPort f).port = f s.port := rfl
@[simp] theorem ints_updPort (f : Port → Port) : (s.updPort f).ints = s.ints := rfl
@[simp] theorem readData_updPort (f : Port → Port) : (s.updPort f).readData = s.readData := rfl
@[simp] theorem pending_updPort (f : Port → Port) : (s.updPort f).pending = s.pending := rfl

/-! ## updCfg -/

@[simp] theorem inReset_updCfg (f : Registers → Registers) : (s.updCfg f).inReset = s.inReset := rfl
@[simp] theorem timer_updCfg (f : Registers → Registers) : (s.updCfg f).timer = s.timer := rfl
@[simp] theorem cfg_updCfg (f : Registers → Registers) : (s.updCfg f).cfg = f s.cfg := rfl
@[simp] theorem grants_updCfg (f : Registers → Registers) : (s.updCfg f).grants = s.grants := rfl
@[simp] theorem freeQueue_updCfg (f : Registers → Registers) : (s.updCfg f).freeQueue = s.freeQueue := rfl
@[simp] theorem commitCounter_updCfg (f : Registers → Registers) : (s.updCfg f).commitCounter = s.commitCounter := rfl
@[simp] theorem map_updCfg (f : Registers → Registers) : (s.updCfg f).map = s.map := rfl
@[simp] theorem engine_updCfg (f : Registers → Registers) : (s.updCfg f).engine = s.engine := rfl
@[simp] theorem stations_updCfg (f : Registers → Registers) : (s.updCfg f).stations = s.stations := rfl
@[simp] theorem asks_updCfg (f : Registers → Registers) : (s.updCfg f).asks = s.asks := rfl
@[simp] theorem askQueue_updCfg (f : Registers → Registers) : (s.updCfg f).askQueue = s.askQueue := rfl
@[simp] theorem mailboxes_updCfg (f : Registers → Registers) : (s.updCfg f).mailboxes = s.mailboxes := rfl
@[simp] theorem arbiterPointer_updCfg (f : Registers → Registers) : (s.updCfg f).arbiterPointer = s.arbiterPointer := rfl
@[simp] theorem downlink_updCfg (f : Registers → Registers) : (s.updCfg f).downlink = s.downlink := rfl
@[simp] theorem intrusions_updCfg (f : Registers → Registers) : (s.updCfg f).intrusions = s.intrusions := rfl
@[simp] theorem port_updCfg (f : Registers → Registers) : (s.updCfg f).port = s.port := rfl
@[simp] theorem ints_updCfg (f : Registers → Registers) : (s.updCfg f).ints = s.ints := rfl
@[simp] theorem readData_updCfg (f : Registers → Registers) : (s.updCfg f).readData = s.readData := rfl
@[simp] theorem pending_updCfg (f : Registers → Registers) : (s.updCfg f).pending = s.pending := rfl

/-! ## updTimer -/

@[simp] theorem inReset_updTimer (f : Timer → Timer) : (s.updTimer f).inReset = s.inReset := rfl
@[simp] theorem timer_updTimer (f : Timer → Timer) : (s.updTimer f).timer = f s.timer := rfl
@[simp] theorem cfg_updTimer (f : Timer → Timer) : (s.updTimer f).cfg = s.cfg := rfl
@[simp] theorem grants_updTimer (f : Timer → Timer) : (s.updTimer f).grants = s.grants := rfl
@[simp] theorem freeQueue_updTimer (f : Timer → Timer) : (s.updTimer f).freeQueue = s.freeQueue := rfl
@[simp] theorem commitCounter_updTimer (f : Timer → Timer) : (s.updTimer f).commitCounter = s.commitCounter := rfl
@[simp] theorem map_updTimer (f : Timer → Timer) : (s.updTimer f).map = s.map := rfl
@[simp] theorem engine_updTimer (f : Timer → Timer) : (s.updTimer f).engine = s.engine := rfl
@[simp] theorem stations_updTimer (f : Timer → Timer) : (s.updTimer f).stations = s.stations := rfl
@[simp] theorem asks_updTimer (f : Timer → Timer) : (s.updTimer f).asks = s.asks := rfl
@[simp] theorem askQueue_updTimer (f : Timer → Timer) : (s.updTimer f).askQueue = s.askQueue := rfl
@[simp] theorem mailboxes_updTimer (f : Timer → Timer) : (s.updTimer f).mailboxes = s.mailboxes := rfl
@[simp] theorem arbiterPointer_updTimer (f : Timer → Timer) : (s.updTimer f).arbiterPointer = s.arbiterPointer := rfl
@[simp] theorem downlink_updTimer (f : Timer → Timer) : (s.updTimer f).downlink = s.downlink := rfl
@[simp] theorem intrusions_updTimer (f : Timer → Timer) : (s.updTimer f).intrusions = s.intrusions := rfl
@[simp] theorem port_updTimer (f : Timer → Timer) : (s.updTimer f).port = s.port := rfl
@[simp] theorem ints_updTimer (f : Timer → Timer) : (s.updTimer f).ints = s.ints := rfl
@[simp] theorem readData_updTimer (f : Timer → Timer) : (s.updTimer f).readData = s.readData := rfl
@[simp] theorem pending_updTimer (f : Timer → Timer) : (s.updTimer f).pending = s.pending := rfl

/-! ## updEngine -/

@[simp] theorem inReset_updEngine (f : Engine → Engine) : (s.updEngine f).inReset = s.inReset := rfl
@[simp] theorem timer_updEngine (f : Engine → Engine) : (s.updEngine f).timer = s.timer := rfl
@[simp] theorem cfg_updEngine (f : Engine → Engine) : (s.updEngine f).cfg = s.cfg := rfl
@[simp] theorem grants_updEngine (f : Engine → Engine) : (s.updEngine f).grants = s.grants := rfl
@[simp] theorem freeQueue_updEngine (f : Engine → Engine) : (s.updEngine f).freeQueue = s.freeQueue := rfl
@[simp] theorem commitCounter_updEngine (f : Engine → Engine) : (s.updEngine f).commitCounter = s.commitCounter := rfl
@[simp] theorem map_updEngine (f : Engine → Engine) : (s.updEngine f).map = s.map := rfl
@[simp] theorem engine_updEngine (f : Engine → Engine) : (s.updEngine f).engine = f s.engine := rfl
@[simp] theorem stations_updEngine (f : Engine → Engine) : (s.updEngine f).stations = s.stations := rfl
@[simp] theorem asks_updEngine (f : Engine → Engine) : (s.updEngine f).asks = s.asks := rfl
@[simp] theorem askQueue_updEngine (f : Engine → Engine) : (s.updEngine f).askQueue = s.askQueue := rfl
@[simp] theorem mailboxes_updEngine (f : Engine → Engine) : (s.updEngine f).mailboxes = s.mailboxes := rfl
@[simp] theorem arbiterPointer_updEngine (f : Engine → Engine) : (s.updEngine f).arbiterPointer = s.arbiterPointer := rfl
@[simp] theorem downlink_updEngine (f : Engine → Engine) : (s.updEngine f).downlink = s.downlink := rfl
@[simp] theorem intrusions_updEngine (f : Engine → Engine) : (s.updEngine f).intrusions = s.intrusions := rfl
@[simp] theorem port_updEngine (f : Engine → Engine) : (s.updEngine f).port = s.port := rfl
@[simp] theorem ints_updEngine (f : Engine → Engine) : (s.updEngine f).ints = s.ints := rfl
@[simp] theorem readData_updEngine (f : Engine → Engine) : (s.updEngine f).readData = s.readData := rfl
@[simp] theorem pending_updEngine (f : Engine → Engine) : (s.updEngine f).pending = s.pending := rfl

/-! ## raise -/

@[simp] theorem inReset_raise (f : Flag) : (s.raise f).inReset = s.inReset := rfl
@[simp] theorem timer_raise (f : Flag) : (s.raise f).timer = s.timer := rfl
@[simp] theorem cfg_raise (f : Flag) : (s.raise f).cfg = s.cfg := rfl
@[simp] theorem grants_raise (f : Flag) : (s.raise f).grants = s.grants := rfl
@[simp] theorem freeQueue_raise (f : Flag) : (s.raise f).freeQueue = s.freeQueue := rfl
@[simp] theorem commitCounter_raise (f : Flag) : (s.raise f).commitCounter = s.commitCounter := rfl
@[simp] theorem map_raise (f : Flag) : (s.raise f).map = s.map := rfl
@[simp] theorem engine_raise (f : Flag) : (s.raise f).engine = s.engine := rfl
@[simp] theorem stations_raise (f : Flag) : (s.raise f).stations = s.stations := rfl
@[simp] theorem asks_raise (f : Flag) : (s.raise f).asks = s.asks := rfl
@[simp] theorem askQueue_raise (f : Flag) : (s.raise f).askQueue = s.askQueue := rfl
@[simp] theorem mailboxes_raise (f : Flag) : (s.raise f).mailboxes = s.mailboxes := rfl
@[simp] theorem arbiterPointer_raise (f : Flag) : (s.raise f).arbiterPointer = s.arbiterPointer := rfl
@[simp] theorem downlink_raise (f : Flag) : (s.raise f).downlink = s.downlink := rfl
@[simp] theorem intrusions_raise (f : Flag) : (s.raise f).intrusions = s.intrusions := rfl
@[simp] theorem port_raise (f : Flag) : (s.raise f).port = s.port := rfl
@[simp] theorem ints_raise (f : Flag) : (s.raise f).ints = s.ints.raise f := rfl
@[simp] theorem readData_raise (f : Flag) : (s.raise f).readData = s.readData := rfl
@[simp] theorem pending_raise (f : Flag) : (s.raise f).pending = s.pending := rfl

end Sys2Proof.Machine.State
end

