-- ==== Sys2Proof/Laws/Tables.lean ====
section
/-! SUPPORT. What reading gives after a write of a Table, and that every write keeps the canonical form. -/

namespace Sys2Proof

variable {α : Type}

/-! ## Cells -/

theorem lookup_cons_if (k a : Nat) (b : α) (l : List (Nat × α)) :
    ((a, b) :: l).lookup k = if k = a then some b else l.lookup k := by
  by_cases h : k = a
  · simp [h]
  · have h' : (k == a) = false := by simpa using h
    simp [List.lookup_cons, h, h']

theorem lookup_filter_ne (l : List (Nat × α)) {k j : Nat} (h : j ≠ k) :
    (l.filter (fun c => c.1 != k)).lookup j = l.lookup j := by
  induction l with
  | nil => rfl
  | cons c l ih =>
    obtain ⟨c1, c2⟩ := c
    by_cases hc : c1 = k
    · subst hc
      rw [List.filter_cons_of_neg (by simp), ih, lookup_cons_if, if_neg h]
    · rw [List.filter_cons_of_pos (by simpa using hc), lookup_cons_if, lookup_cons_if, ih]

theorem lookup_filter_self (l : List (Nat × α)) (k : Nat) : (l.filter (fun c => c.1 != k)).lookup k = none := by
  induction l with
  | nil => rfl
  | cons c l ih =>
    obtain ⟨c1, c2⟩ := c
    by_cases hc : c1 = k
    · rw [List.filter_cons_of_neg (by simpa using hc), ih]
    · rw [List.filter_cons_of_pos (by simpa using hc), lookup_cons_if, if_neg (Ne.symm hc), ih]

theorem lookup_insertCell (l : List (Nat × α)) (k : Nat) (v : α) (hl : l.lookup k = none) (j : Nat) :
    (insertCell k v l).lookup j = if j = k then some v else l.lookup j := by
  induction l with
  | nil => rw [insertCell, lookup_cons_if]
  | cons c l ih =>
    obtain ⟨c1, c2⟩ := c
    rw [lookup_cons_if] at hl
    have hk : k ≠ c1 := by rintro rfl; simp at hl
    rw [if_neg hk] at hl
    unfold insertCell
    by_cases hlt : k < c1
    · rw [if_pos hlt, lookup_cons_if]
    · rw [if_neg hlt, lookup_cons_if, ih hl, lookup_cons_if]
      by_cases h : j = c1
      · subst h; simp [Ne.symm hk]
      · simp [h]

/-! ## Reading after a write -/

@[simp] theorem Table.get_empty (d : α) (k : Nat) : (Table.empty : Table α).get d k = d := rfl

theorem Table.get_put [DecidableEq α] (d : α) (t : Table α) (k j : Nat) (v : α) :
    (t.put d k v).get d j = if j = k then v else t.get d j := by
  unfold Table.put Table.get
  by_cases hv : v = d
  · by_cases h : j = k
    · subst h; simp [hv, lookup_filter_self]
    · simp [hv, h, lookup_filter_ne]
  · simp only [hv, if_false]
    rw [lookup_insertCell _ _ _ (lookup_filter_self _ _)]
    by_cases h : j = k
    · simp [h]
    · simp [h, lookup_filter_ne]

@[simp] theorem Table.get_put_same [DecidableEq α] (d : α) (t : Table α) (k : Nat) (v : α) :
    (t.put d k v).get d k = v := by simp [Table.get_put]

theorem Table.get_put_other [DecidableEq α] (d : α) (t : Table α) {k j : Nat} (v : α) (h : j ≠ k) :
    (t.put d k v).get d j = t.get d j := by simp [Table.get_put, h]

/-! ## The canonical form -/

theorem Table.wf_iff [DecidableEq α] (d : α) (t : Table α) :
    t.wf d = true ↔ t.cells.Pairwise (fun a b => a.1 < b.1) ∧ ∀ c ∈ t.cells, c.2 ≠ d := by
  simp [Table.wf]

@[simp] theorem Table.wf_empty [DecidableEq α] (d : α) : (Table.empty : Table α).wf d = true := by
  simp [Table.wf, Table.empty]

theorem mem_insertCell {l : List (Nat × α)} {k : Nat} {v : α} {c : Nat × α} (h : c ∈ insertCell k v l) :
    c = (k, v) ∨ c ∈ l := by
  induction l with
  | nil => simpa [insertCell] using h
  | cons e l ih =>
    unfold insertCell at h
    split at h
    · simpa using h
    · rcases List.mem_cons.1 h with rfl | h
      · simp
      · rcases ih h with h | h <;> simp [h]

theorem pairwise_insertCell {l : List (Nat × α)} {k : Nat} {v : α} (hl : l.Pairwise (fun a b => a.1 < b.1))
    (hk : ∀ c ∈ l, c.1 ≠ k) : (insertCell k v l).Pairwise (fun a b => a.1 < b.1) := by
  induction l with
  | nil => simp [insertCell]
  | cons e l ih =>
    have he := hk e (by simp)
    rw [List.pairwise_cons] at hl
    unfold insertCell
    split
    · rename_i hlt
      rw [List.pairwise_cons]
      refine ⟨fun c hc => ?_, List.pairwise_cons.2 hl⟩
      rcases List.mem_cons.1 hc with rfl | hc
      · exact hlt
      · exact lt_trans hlt (hl.1 c hc)
    · rename_i hlt
      rw [List.pairwise_cons]
      refine ⟨fun c hc => ?_, ih hl.2 (fun c hc => hk c (by simp [hc]))⟩
      rcases mem_insertCell hc with rfl | hc
      · show e.1 < k
        omega
      · exact hl.1 c hc

theorem Table.wf_put [DecidableEq α] {d : α} {t : Table α} (h : t.wf d = true) (k : Nat) (v : α) :
    (t.put d k v).wf d = true := by
  rw [Table.wf_iff] at h ⊢
  have hp : (t.cells.filter (fun c => c.1 != k)).Pairwise (fun a b => a.1 < b.1) := h.1.filter _
  have hd : ∀ c ∈ t.cells.filter (fun c => c.1 != k), c.2 ≠ d := fun c hc => h.2 c (List.mem_filter.1 hc).1
  unfold Table.put
  by_cases hv : v = d
  · simpa [hv] using ⟨hp, fun a b hab _ => h.2 (a, b) hab⟩
  · simp only [hv, if_false]
    refine ⟨pairwise_insertCell hp (fun c hc => by simpa using (List.mem_filter.1 hc).2), fun c hc => ?_⟩
    rcases mem_insertCell hc with rfl | hc
    · exact hv
    · exact hd c hc

theorem Table.wf_mapValues [DecidableEq α] {d : α} {t : Table α} (h : t.wf d = true) (f : Nat → α → α) :
    (t.mapValues d f).wf d = true := by
  rw [Table.wf_iff] at h ⊢
  refine ⟨List.Pairwise.filter _ ?_, fun c hc => by simpa using (List.mem_filter.1 hc).2⟩
  simpa [List.pairwise_map] using h.1

/-- In canonical form a listed key reads as its cell. -/
theorem Table.get_of_mem [DecidableEq α] {d : α} {t : Table α} (h : t.wf d = true) {k : Nat} {v : α}
    (hm : (k, v) ∈ t.cells) : t.get d k = v := by
  rw [Table.wf_iff] at h
  obtain ⟨cells⟩ := t
  replace h := h.1
  simp only [Table.get] at hm h ⊢
  induction cells with
  | nil => simp at hm
  | cons c l ih =>
    obtain ⟨c1, c2⟩ := c
    rw [List.pairwise_cons] at h
    rw [lookup_cons_if]
    rcases List.mem_cons.1 hm with hm | hm
    · obtain ⟨rfl, rfl⟩ := Prod.mk.inj hm
      simp
    · have hne : k ≠ c1 := by have := h.1 _ hm; simp only at this; omega
      rw [if_neg hne]
      exact ih hm h.2

/-- A key that is not listed reads as the default. -/
theorem Table.get_of_not_mem (d : α) (t : Table α) {k : Nat} (h : ∀ c ∈ t.cells, c.1 ≠ k) : t.get d k = d := by
  obtain ⟨cells⟩ := t
  simp only [Table.get] at h ⊢
  have : cells.lookup k = none := by
    rw [List.lookup_eq_none_iff]
    intro c hc
    simpa using Ne.symm (h c hc)
  simp [this]

/-- A read gives the default or the value of a listed cell. -/
theorem Table.get_cases (d : α) (t : Table α) (k : Nat) :
    (t.get d k = d ∧ ∀ v, t.cells.lookup k ≠ some v) ∨ ((k, t.get d k) ∈ t.cells) := by
  obtain ⟨cells⟩ := t
  simp only [Table.get]
  cases hl : cells.lookup k with
  | none => left; simp
  | some v =>
    right
    obtain ⟨l1, l2, h, -⟩ := List.lookup_eq_some_iff.1 hl
    simp [h]

theorem Table.get_mapValues [DecidableEq α] {d : α} {t : Table α} (h : t.wf d = true) (f : Nat → α → α) (k : Nat)
    (hf : f k d = d) : (t.mapValues d f).get d k = f k (t.get d k) := by
  have hw := Table.wf_mapValues h f
  by_cases hm : ∃ v, (k, v) ∈ t.cells
  · obtain ⟨v, hv⟩ := hm
    rw [Table.get_of_mem h hv]
    by_cases hd : f k v = d
    · rw [hd]
      refine Table.get_of_not_mem d _ (fun c hc => ?_)
      rintro rfl
      simp only [Table.mapValues, List.mem_filter, List.mem_map] at hc
      obtain ⟨⟨e, he, rfl⟩, hne⟩ := hc
      have : e.2 = v := by
        rw [← Table.get_of_mem h (k := e.1) (v := e.2) (by simpa using he)]
        exact Table.get_of_mem h hv
      simp [this] at hne
      exact hne hd
    · exact Table.get_of_mem hw (by simp only [Table.mapValues, List.mem_filter, List.mem_map]
                                    exact ⟨⟨(k, v), hv, rfl⟩, by simpa using hd⟩)
  · have h1 : ∀ c ∈ t.cells, c.1 ≠ k := fun c hc e => hm ⟨c.2, by rw [← e]; exact hc⟩
    rw [Table.get_of_not_mem d t h1, hf]
    refine Table.get_of_not_mem d _ (fun c hc => ?_)
    simp only [Table.mapValues, List.mem_filter, List.mem_map] at hc
    obtain ⟨⟨e, he, rfl⟩, -⟩ := hc
    exact h1 e he

end Sys2Proof
end

