-- ==== Sys2Proof/Laws/Reads.lean ====
section
/-! SUPPORT. Each array read after each write, what opening an epoch and recording or swapping a change do to the Slot
Map, and the mailboxes after a frame end. -/

namespace Sys2Proof.Machine

variable (s : State)

/-! ## Arrays -/

theorem State.grant_updGrant (i j : Nat) (f : Grant → Grant) :
    (s.updGrant i f).grant j = if j = i then f (s.grant i) else s.grant j := by
  simp [State.grant, Table.get_put]

@[simp] theorem State.grant_updGrant_same (i : Nat) (f : Grant → Grant) : (s.updGrant i f).grant i = f (s.grant i) := by
  simp [State.grant_updGrant]

theorem State.grant_updGrant_other {i j : Nat} (f : Grant → Grant) (h : j ≠ i) :
    (s.updGrant i f).grant j = s.grant j := by simp [State.grant_updGrant, h]

theorem State.station_updStation (a b : Nat) (f : Station → Station) :
    (s.updStation a f).station b = if b = a then f (s.station a) else s.station b := by
  simp [State.station, Table.get_put]

@[simp] theorem State.station_updStation_same (a : Nat) (f : Station → Station) :
    (s.updStation a f).station a = f (s.station a) := by simp [State.station_updStation]

theorem State.ask_updAsk (a b : Nat) (f : AskRecord → AskRecord) :
    (s.updAsk a f).ask b = if b = a then f (s.ask a) else s.ask b := by
  simp [State.ask, Table.get_put]

@[simp] theorem State.ask_updAsk_same (a : Nat) (f : AskRecord → AskRecord) : (s.updAsk a f).ask a = f (s.ask a) := by
  simp [State.ask_updAsk]

theorem State.mailbox_updMailbox (a b : Nat) (f : Mailbox → Mailbox) :
    (s.updMailbox a f).mailbox b = if b = a then f (s.mailbox a) else s.mailbox b := by
  simp [State.mailbox, Table.get_put]

@[simp] theorem State.mailbox_updMailbox_same (a : Nat) (f : Mailbox → Mailbox) :
    (s.updMailbox a f).mailbox a = f (s.mailbox a) := by simp [State.mailbox_updMailbox]

/-! ## A read of one array after the write of another -/

/-- Reads that see only the field they name. -/
theorem State.grant_congr {s t : State} (h : t.grants = s.grants) (i : Nat) : t.grant i = s.grant i := by
  unfold State.grant; rw [h]

theorem State.station_congr {s t : State} (h : t.stations = s.stations) (a : Nat) : t.station a = s.station a := by
  unfold State.station; rw [h]

theorem State.ask_congr {s t : State} (h : t.asks = s.asks) (a : Nat) : t.ask a = s.ask a := by
  unfold State.ask; rw [h]

theorem State.mailbox_congr {s t : State} (h : t.mailboxes = s.mailboxes) (a : Nat) : t.mailbox a = s.mailbox a := by
  unfold State.mailbox; rw [h]

/-! ## Opening an epoch (R39) -/

@[simp] theorem State.inReset_openIfNone : s.openIfNone.inReset = s.inReset := by unfold State.openIfNone; split <;> rfl
@[simp] theorem State.timer_openIfNone : s.openIfNone.timer = s.timer := by unfold State.openIfNone; split <;> rfl
@[simp] theorem State.cfg_openIfNone : s.openIfNone.cfg = s.cfg := by unfold State.openIfNone; split <;> rfl
@[simp] theorem State.grants_openIfNone : s.openIfNone.grants = s.grants := by unfold State.openIfNone; split <;> rfl
@[simp] theorem State.freeQueue_openIfNone : s.openIfNone.freeQueue = s.freeQueue := by
  unfold State.openIfNone; split <;> rfl
@[simp] theorem State.commitCounter_openIfNone : s.openIfNone.commitCounter = s.commitCounter := by
  unfold State.openIfNone; split <;> rfl
@[simp] theorem State.engine_openIfNone : s.openIfNone.engine = s.engine := by unfold State.openIfNone; split <;> rfl
@[simp] theorem State.stations_openIfNone : s.openIfNone.stations = s.stations := by
  unfold State.openIfNone; split <;> rfl
@[simp] theorem State.asks_openIfNone : s.openIfNone.asks = s.asks := by unfold State.openIfNone; split <;> rfl
@[simp] theorem State.askQueue_openIfNone : s.openIfNone.askQueue = s.askQueue := by
  unfold State.openIfNone; split <;> rfl
@[simp] theorem State.mailboxes_openIfNone : s.openIfNone.mailboxes = s.mailboxes := by
  unfold State.openIfNone; split <;> rfl
@[simp] theorem State.arbiterPointer_openIfNone : s.openIfNone.arbiterPointer = s.arbiterPointer := by
  unfold State.openIfNone; split <;> rfl
@[simp] theorem State.downlink_openIfNone : s.openIfNone.downlink = s.downlink := by
  unfold State.openIfNone; split <;> rfl
@[simp] theorem State.intrusions_openIfNone : s.openIfNone.intrusions = s.intrusions := by
  unfold State.openIfNone; split <;> rfl
@[simp] theorem State.port_openIfNone : s.openIfNone.port = s.port := by unfold State.openIfNone; split <;> rfl
@[simp] theorem State.ints_openIfNone : s.openIfNone.ints = s.ints := by unfold State.openIfNone; split <;> rfl
@[simp] theorem State.readData_openIfNone : s.openIfNone.readData = s.readData := by
  unfold State.openIfNone; split <;> rfl
@[simp] theorem State.pending_openIfNone : s.openIfNone.pending = s.pending := by unfold State.openIfNone; split <;> rfl
@[simp] theorem State.active_openIfNone : s.openIfNone.map.active = s.map.active := by
  unfold State.openIfNone; split <;> rfl
@[simp] theorem State.plan_openIfNone : s.openIfNone.map.plan = s.map.plan := by unfold State.openIfNone; split <;> rfl
@[simp] theorem State.taint_openIfNone : s.openIfNone.map.taint = s.map.taint := by
  unfold State.openIfNone; split <;> rfl
@[simp] theorem State.sealedEpoch_openIfNone : s.openIfNone.map.sealedEpoch = s.map.sealedEpoch := by
  unfold State.openIfNone; split <;> rfl

/-- After it an epoch is OPEN: the one that was, or a fresh one with an empty list. -/
theorem State.openEpoch_openIfNone : ∃ e, s.openIfNone.map.openEpoch = some e
    ∧ (s.map.openEpoch = some e ∨ (s.map.openEpoch = none ∧ e.changes = .empty)) := by
  unfold State.openIfNone
  split
  · rename_i e he
    exact ⟨e, he, .inl he⟩
  · rename_i he
    exact ⟨_, rfl, .inr ⟨he, rfl⟩⟩

/-! ## Change lists (R42, R49) -/

theorem mergeChange_get (l : Table (Option Change)) (n : Nat) (x y : Owner) (j : Nat) :
    (mergeChange l n x y).get none j =
      if j = n then
        (match l.get none n with
          | some c => if c.fromOwner = y then none else some { c with toOwner := y }
          | none => some { fromOwner := x, toOwner := y })
      else l.get none j := by
  unfold mergeChange
  split
  · split <;> simp [Table.get_put, *]
  · simp [Table.get_put, *]

theorem mergeChange_wf {l : Table (Option Change)} (h : l.wf none = true) (n : Nat) (x y : Owner) :
    (mergeChange l n x y).wf none = true := by
  unfold mergeChange
  split
  · split <;> exact Table.wf_put h _ _
  · exact Table.wf_put h _ _

theorem applied_wf (l : List (Nat × Change)) {t : Table Owner} (h : t.wf none = true) :
    (l.foldl (fun t c => t.put none c.1 c.2.toOwner) t).wf none = true := by
  induction l generalizing t with
  | nil => exact h
  | cons c l ih => exact ih (Table.wf_put h _ _)

/-- A canonical list applied to a map: a slot the list names gets its new owner, every other keeps its own. -/
theorem applied_get {cells : List (Nat × Option Change)} (hw : (Table.mk cells).wf none = true) (t : Table Owner)
    (n : Nat) :
    ((changesOf (Table.mk cells)).foldl (fun t c => t.put none c.1 c.2.toOwner) t).get none n =
      match (Table.mk cells).get none n with
      | some c => c.toOwner
      | none => t.get none n := by
  rw [Table.wf_iff] at hw
  induction cells generalizing t with
  | nil => rfl
  | cons c l ih =>
    obtain ⟨k, v⟩ := c
    obtain ⟨h1, h2⟩ := hw
    rw [List.pairwise_cons] at h1
    cases v with
    | none => exact absurd rfl (h2 (k, none) (by simp))
    | some ch =>
      have hc : changesOf (Table.mk ((k, some ch) :: l)) = (k, ch) :: changesOf (Table.mk l) := rfl
      have hg : (Table.mk ((k, some ch) :: l)).get none n = if n = k then some ch else (Table.mk l).get none n := by
        simp only [Table.get, lookup_cons_if]
        split <;> rfl
      rw [hc, List.foldl_cons, ih ⟨h1.2, fun c hc => h2 c (by simp [hc])⟩, hg]
      by_cases hn : n = k
      · subst hn
        have : (Table.mk l).get none n = none := Table.get_of_not_mem _ _ (fun c hc => by
          have := h1.1 c hc
          simp only at this
          omega)
        simp [this]
      · simp only [hn, if_false, Table.get_put]

/-! ## A frame end (R138, R142) -/

theorem State.mailbox_countDownNotices {s : State} (h : s.mailboxes.wf Mailbox.fresh = true) (a : Nat) :
    s.countDownNotices.mailbox a = (s.mailbox a).frameEnd (s.station a).state := by
  unfold State.countDownNotices State.mailbox
  refine Table.get_mapValues h _ a ?_
  simp only [Mailbox.frameEnd, Mailbox.fresh, SendState.countDown, SendState.unsent]
  split <;> rfl

theorem State.taint_decayTaint {s : State} (h : s.map.taint.wf 0 = true) (n : Nat) :
    s.decayTaint.taintAt n = decNonzero (s.taintAt n) :=
  Table.get_mapValues h (fun _ v => decNonzero v) n (by decide)

end Sys2Proof.Machine
end

