-- ==== Sys2Proof/Laws/Kept.lean ====
section
/-! SUPPORT. What a step can do, said once: a property that every named write keeps is kept by every operation built of
them, and so by every command (`Kept`, `KeptAll`, `exec_keeps`). -/

namespace Sys2Proof.Machine

/-- A property that the writes of claims keep: to grant, station, ask and notice records, the queues of free records and
of asks, the flags, and the recording of a change. -/
structure Kept (P : State → Prop) : Prop where
  grant : ∀ i f s, P s → P (s.updGrant i f)
  station : ∀ a f s, P s → P (s.updStation a f)
  ask : ∀ a f s, P s → P (s.updAsk a f)
  mailbox : ∀ a f s, ((s.mailbox a).queue.length ≤ Config.noticeLimit →
    (f (s.mailbox a)).queue.length ≤ Config.noticeLimit) → P s → P (s.updMailbox a f)
  flag : ∀ f s, P s → P (s.raise f)
  freeQueue : ∀ q s, P s → P { s with freeQueue := q }
  askQueue : ∀ q s, q.Sublist s.askQueue → P s → P { s with askQueue := q }
  record : ∀ n y s, s.planAt n ≠ y → P s → P (s.openIfNone.updMap (SlotMap.recordIn n (s.planAt n) y))

variable {P : State → Prop} {s : State}

theorem foldl_keeps {α : Type} {f : State → α → State} (h : ∀ x s, P s → P (f s x)) (l : List α) (hs : P s) :
    P (l.foldl f s) := by
  induction l generalizing s with
  | nil => exact hs
  | cons x l ih => exact ih (h x s hs)

namespace Kept

/-! ## Notices and the Roster -/

theorem handNotice (K : Kept P) (a : Nat) (n : Notice) (h : P s) : P (s.handNotice a n) := by
  unfold State.handNotice
  split
  · split
    · refine K.flag _ _ (K.mailbox _ _ _ (fun hb => ?_) h)
      rename_i hf
      simp only [markSyncLost, List.length_append, List.length_dropLast, List.length_cons, List.length_nil]
      simp only [Config.noticeLimit] at *
      omega
    · rename_i hf
      refine K.mailbox _ _ _ (fun _ => ?_) h
      simp only [Mailbox.append, List.length_append, List.length_cons, List.length_nil]
      omega
  · exact h

theorem emptyQueue (K : Kept P) (a : Nat) (h : P s) : P (s.emptyQueue a) :=
  K.mailbox _ _ _ (fun _ => Nat.zero_le _) h

theorem offerLeft (K : Kept P) (a : Nat) (h : P s) : P (s.offerLeft a) := by
  unfold State.offerLeft
  split
  · exact K.mailbox _ _ _ (fun _ => by simp [Config.noticeLimit]) h
  · exact h

theorem moveStation (K : Kept P) (a : Nat) (st : StationState) (h : P s) : P (s.moveStation a st) :=
  K.flag _ _ (K.station _ _ _ h)

theorem enterAbsent (K : Kept P) (a : Nat) (h : P s) : P (s.enterAbsent a) :=
  K.moveStation _ _ (K.station _ _ _ (K.emptyQueue _ h))

theorem departIfDone (K : Kept P) (a : Nat) (h : P s) : P (s.departIfDone a) := by
  unfold State.departIfDone
  split
  · exact K.enterAbsent _ h
  · exact h

theorem failJoin (K : Kept P) (a : Nat) (why : LeaveReason) (h : P s) : P (s.failJoin a why) :=
  K.enterAbsent _ (K.station _ _ _ h)

theorem holdOneMore (K : Kept P) (a : Nat) (h : P s) : P (s.holdOneMore a) := K.station _ _ _ h

theorem holdOneFewer (K : Kept P) (o : Option Nat) (h : P s) : P (s.holdOneFewer o) := by
  cases o with
  | none => exact h
  | some a => exact K.departIfDone _ (K.station _ _ _ h)

theorem planOneMore (K : Kept P) (o : Option Nat) (h : P s) : P (s.planOneMore o) := by
  unfold State.planOneMore
  split
  · exact h
  · exact K.station _ _ _ h

theorem planOneFewer (K : Kept P) (o : Option Nat) (h : P s) : P (s.planOneFewer o) := by
  unfold State.planOneFewer
  split
  · exact h
  · exact K.station _ _ _ h

theorem setSuspended (K : Kept P) (a : Nat) (b : Bool) (h : P s) : P (s.setSuspended a b) := K.station _ _ _ h

theorem removeHead (K : Kept P) (a : Nat) (h : P s) : P (s.updMailbox a Mailbox.removeHead) :=
  K.mailbox _ _ _ (fun hb => by simp only [Mailbox.removeHead, List.length_tail]; omega) h

theorem takeAck (K : Kept P) (a : Nat) (ack : BitVec 4) (h : P s) : P (s.takeAck a ack) := by
  unfold State.takeAck
  split
  · dsimp only
    split
    · exact K.moveStation _ _ (K.removeHead _ h)
    · exact K.removeHead _ h
  · exact h

/-! ## Claims -/

theorem planCountDown (K : Kept P) (o : Owner) (h : P s) : P (s.planCountDown o) := by
  cases o with
  | none => exact h
  | some i => exact K.planOneFewer _ (K.grant _ _ _ h)

theorem planCountUp (K : Kept P) (o : Owner) (h : P s) : P (s.planCountUp o) := by
  cases o with
  | none => exact h
  | some i => exact K.planOneMore _ (K.grant _ _ _ h)

theorem recordChange (K : Kept P) (n : Nat) (y : Owner) (h : P s) : P (s.recordChange n y) := by
  unfold State.recordChange
  dsimp only
  split
  · exact h
  · rename_i hne
    exact K.planCountUp _ (K.planCountDown _ (K.record _ _ _ hne h))

theorem clearPlan (K : Kept P) (i : Nat) (h : P s) : P (s.clearPlan i) :=
  foldl_keeps (fun _ _ h => K.recordChange _ _ h) _ h

theorem rederive (K : Kept P) (i : Nat) (h : P s) : P (s.rederive i) := by
  unfold State.rederive
  split
  · exact h
  · exact K.grant _ _ _ h

theorem freeRecord (K : Kept P) (i : Nat) (h : P s) : P (s.freeRecord i) :=
  K.holdOneFewer _ (K.freeQueue _ _ (K.grant _ _ _ h))

theorem freeIfDue (K : Kept P) (i : Nat) (h : P s) : P (s.freeIfDue i) := by
  unfold State.freeIfDue
  split
  · exact K.freeRecord _ h
  · exact h

theorem complete (K : Kept P) (l : List Nat) (h : P s) : P (s.complete l) :=
  foldl_keeps (fun _ _ h => K.freeIfDue _ h) _ (foldl_keeps (fun _ _ h => K.rederive _ h) _ h)

theorem noticeRevoked (K : Kept P) (why : Option RevokeReason) (o : Option Nat) (hd : Handle) (i : Nat) (h : P s) :
    P (s.noticeRevoked why o hd i) := by
  unfold State.noticeRevoked
  split
  · split
    · exact h
    · exact K.handNotice _ _ h
  · exact h

theorem retire (K : Kept P) (l : List Nat) (why : Option RevokeReason) (h : P s) : P (s.retire l why).1 :=
  foldl_keeps (fun _ _ h => K.noticeRevoked _ _ _ _ h) _ (K.complete _ (foldl_keeps (fun _ _ h => K.clearPlan _ h) _ h))

theorem dropWaitingAsk (K : Kept P) (a : Nat) (h : P s) : P (s.dropWaitingAsk a) := by
  unfold State.dropWaitingAsk
  split
  · exact K.askQueue _ _ List.filter_sublist (K.ask _ _ _ h)
  · exact h
  · exact h

theorem enterLeaving (K : Kept P) (a : Nat) (why : LeaveReason) (h : P s) : P (s.enterLeaving a why) :=
  K.departIfDone _ (K.retire _ _ (K.dropWaitingAsk _ (K.emptyQueue _ (K.moveStation _ _ (K.station _ _ _ h)))))

theorem evictStation (K : Kept P) (a : Nat) (h : P s) : P (s.evictStation a) := by
  unfold State.evictStation
  split
  · exact K.enterLeaving _ _ h
  · exact K.enterLeaving _ _ h
  · exact K.failJoin _ _ h
  · exact h
  · exact h

/-! ## Leases -/

theorem noticeOwner (K : Kept P) (i : Nat) (n : Notice) (h : P s) : P (s.noticeOwner i n) := by
  unfold State.noticeOwner
  split
  · exact h
  · exact K.handNotice _ _ h

theorem renewGrant (K : Kept P) (i : Nat) (r : Option (BitVec 16)) (h : P s) : P (s.renewGrant i r) :=
  K.noticeOwner _ _ (K.grant _ _ _ h)

theorem tickLease (K : Kept P) (i : Nat) (h : P s) : P (s.tickLease i) := by
  unfold State.tickLease
  dsimp only
  split
  · exact K.grant _ _ _ (K.noticeOwner _ _ (K.grant _ _ _ h))
  · exact K.grant _ _ _ h

theorem tickIdle (K : Kept P) (i : Nat) (h : P s) : P (s.tickIdle i) := by
  unfold State.tickIdle
  dsimp only
  split
  · exact K.retire _ _ (K.grant _ _ _ h)
  · exact K.grant _ _ _ h

theorem tickRecord (K : Kept P) (i : Nat) (h : P s) : P (s.tickRecord i) := by
  unfold State.tickRecord
  split
  · dsimp only
    split
    · exact K.retire _ _ (K.tickLease _ h)
    · exact K.tickIdle _ (K.tickLease _ h)
  · exact h

theorem tick (K : Kept P) (h : P s) : P s.tick := foldl_keeps (fun _ _ h => K.tickRecord _ h) _ h

theorem tickIfDue (K : Kept P) (h : P s) : P s.tickIfDue := by
  unfold State.tickIfDue
  split
  · exact K.tick h
  · exact h

theorem renewFor (K : Kept P) (a : Nat) (hd : Handle) (c : BitVec 4) (h : P s) : P (s.renewFor a hd c) := by
  unfold State.renewFor
  split
  · split
    · exact K.handNotice _ _ h
    · exact K.renewGrant _ _ h
  · exact K.handNotice _ _ h

theorem dropFor (K : Kept P) (a : Nat) (hd : Handle) (h : P s) : P (s.dropFor a hd) := by
  unfold State.dropFor
  split
  · exact K.retire _ _ h
  · exact K.handNotice _ _ h

/-! ## Uplink slots -/

theorem startJoin (K : Kept P) (a : Nat) (h : P s) : P (s.startJoin a) := by
  unfold State.startJoin
  exact K.ask _ _ _ (K.handNotice _ _ (K.mailbox _ _ _ (fun _ => Nat.zero_le _) (K.moveStation _ _ (K.station _ _ _ h))))

theorem joinFor (K : Kept P) (a : Nat) (h : P s) : P (s.joinFor a) := by
  unfold State.joinFor
  split
  · exact K.offerLeft _ h
  · exact K.startJoin _ h

theorem refuseBusy (K : Kept P) (a : Nat) (q : BitVec 4) (h : P s) : P (s.refuseBusy a q) :=
  K.ask _ _ _ (K.handNotice _ _ h)

theorem absentWord (K : Kept P) (a : Nat) (b : UplinkBody) (h : P s) : P (s.absentWord a b) := by
  unfold State.absentWord
  split
  · exact K.joinFor _ h
  all_goals exact K.offerLeft _ h

theorem markHeard (K : Kept P) (a : Nat) (h : P s) : P (s.markHeard a) := by
  unfold State.markHeard
  split
  · exact K.station _ _ _ h
  · exact h

theorem testThresholds (K : Kept P) (a : Nat) (h : P s) : P (s.testThresholds a) := by
  unfold State.testThresholds
  dsimp only
  split
  · split
    · exact K.failJoin _ _ h
    · exact h
  · split
    · exact K.enterLeaving _ _ h
    · split
      · exact K.moveStation _ _ h
      · exact h
  · split
    · exact K.enterLeaving _ _ h
    · exact h
  · exact h
  · exact h

theorem returnFromQuiet (K : Kept P) (a : Nat) (h : P s) : P (s.returnFromQuiet a) := by
  unfold State.returnFromQuiet
  split
  · exact K.moveStation _ _ h
  · exact h

/-! ## Requests performed at the take -/

theorem clearSuspension (K : Kept P) (e : Quad) (h : P s) : P (s.clearSuspension e) := by
  unfold State.clearSuspension
  split
  · exact K.setSuspended _ _ h
  · exact h

theorem performRelease (K : Kept P) (hd : Handle) (h : P s) : P (s.performRelease hd).1 := by
  unfold State.performRelease
  split
  · split
    · exact h
    · exact K.retire _ _ h
  · exact h

theorem performRetireAll (K : Kept P) (a : Nat) (h : P s) : P (s.performRetireAll a).1 := by
  unfold State.performRetireAll
  split
  · exact K.retire _ _ h
  · exact h

theorem performRenew (K : Kept P) (hd : Handle) (l : Option (BitVec 16)) (h : P s) : P (s.performRenew hd l).1 := by
  unfold State.performRenew
  split
  · split
    · exact h
    · exact K.renewGrant _ _ h
  · exact h

theorem performSetStation (K : Kept P) (a : Nat) (q : BitVec 10) (m : BitVec 2) (b : Bool) (h : P s) :
    P (s.performSetStation a q m b).1 := by
  unfold State.performSetStation
  split
  · dsimp only
    split
    · exact K.evictStation _ (K.station _ _ _ h)
    · exact K.station _ _ _ h
  · exact h

theorem performEvict (K : Kept P) (a : Nat) (h : P s) : P (s.performEvict a).1 := by
  unfold State.performEvict
  split
  · split
    · exact K.evictStation _ h
    · exact h
  · exact h

end Kept

/-- A property that every write but those of the configuration, the interrupt registers and the reset keeps. -/
structure KeptAll (P : State → Prop) : Prop extends Kept P where
  accept : ∀ a f s, P s → P (s.acceptAsk a f)
  counter : ∀ n s, P s → P { s with commitCounter := n }
  engine : ∀ f s, P s → P (s.updEngine f)
  port : ∀ f s, (s.port.bounded → (f s.port).bounded) → P s → P (s.updPort f)
  downlink : ∀ w p s, P s → P { s with downlink := w, arbiterPointer := p }
  intrusions : ∀ n s, P s → P { s with intrusions := n }
  taint : ∀ t s, (s.map.taint.wf 0 = true → t.wf 0 = true) → P s → P (s.updMap (fun m => { m with taint := t }))
  swapMap : ∀ e s, s.map.sealedEpoch = some e → P s → P (s.updMap (SlotMap.swapIn e))
  sealOpen : ∀ s, s.map.sealedEpoch = none → P s → P s.sealOpen
  countDown : ∀ s, P s → P s.countDownNotices
  timer : ∀ f s, P s → P (s.updTimer f)

end Sys2Proof.Machine
end

