-- ==== Sys2Proof/Laws/Steps.lean ====
section
/-! SUPPORT. `KeptAll` for the Request Port, the Placement Engine, the Frame Timer and every command (`exec_keeps`,
`step_keeps`). -/

namespace Sys2Proof.Machine

variable {P : State → Prop} {s : State}

/-- Claims do not touch the Request Port. -/
theorem kept_port (p : Port) : Kept (fun s => s.port = p) where
  grant _ _ _ h := h
  station _ _ _ h := h
  ask _ _ _ h := h
  mailbox _ _ _ _ h := h
  flag _ _ h := h
  freeQueue _ _ h := h
  askQueue _ _ _ h := h
  record _ _ s _ h := by
    show s.openIfNone.port = p
    unfold State.openIfNone
    split
    · exact h
    · exact h

namespace KeptAll

/-! ## The Request Port -/

theorem postResult (K : KeptAll P) (q : Quad) (hn : s.port.inProgress = none)
    (hr : s.port.results.length < Config.resultLimit) (h : P s) : P (s.postResult q) := by
  refine K.flag _ _ (K.port _ _ (fun hb => ⟨hb.1, ?_, ?_⟩) h)
  · simp only [List.length_append, List.length_cons, List.length_nil]
    omega
  · simp [hn]

theorem answer (K : KeptAll P) (e : Quad) {r : State × Answer} (hp : r.1.port = s.port)
    (hn : s.port.inProgress = none) (hr : s.port.results.length < Config.resultLimit) (h : P r.1) :
    P (State.answer e r) :=
  K.postResult _ (by rw [hp]; exact hn) (by rw [hp]; exact hr) h

theorem handOn (K : KeptAll P) (e : Quad) (hr : s.port.results.length < Config.resultLimit) (h : P s) :
    P (s.handOn e) :=
  K.port _ _ (fun hb => ⟨hb.1, hb.2.1, fun _ => hr⟩) h

theorem perform (K : KeptAll P) (e : Quad) (hn : s.port.inProgress = none)
    (hr : s.port.results.length < Config.resultLimit) (h : P s) : P (s.perform e) := by
  have kp := kept_port s.port
  unfold State.perform
  split
  · exact K.handOn _ hr h
  · exact K.handOn _ hr h
  · exact K.answer _ (kp.performRelease _ rfl) hn hr (K.performRelease _ h)
  · exact K.answer _ (kp.performRenew _ _ rfl) hn hr (K.performRenew _ _ h)
  · exact K.answer _ (kp.performSetStation _ _ _ _ rfl) hn hr (K.performSetStation _ _ _ _ h)
  · exact K.answer _ (kp.performEvict _ rfl) hn hr (K.performEvict _ h)
  · exact K.answer _ (kp.performRetireAll _ rfl) hn hr (K.performRetireAll _ h)
  · exact K.answer (s := s) _ rfl hn hr h
  · exact K.answer (s := s) _ rfl hn hr h
  · exact K.answer (s := s) _ rfl hn hr h
  · exact K.answer (s := s) _ rfl hn hr h
  · exact K.postResult _ hn hr h
  · exact K.answer (s := s) _ rfl hn hr h

theorem takeEntry (K : KeptAll P) (e : Quad) (rest : List Quad) (hq : s.port.requests = e :: rest)
    (hc : s.port.canTake = true) (h : P s) : P (s.takeEntry e rest) := by
  simp only [Port.canTake, Bool.and_eq_true, beq_iff_eq, decide_eq_true_eq] at hc
  have h1 : P (s.updPort (fun p => { p with requests := rest })) := by
    refine K.port _ _ (fun hb => ⟨?_, hb.2⟩) h
    have := hb.1
    rw [hq] at this
    simp only [List.length_cons] at this
    dsimp only
    omega
  have hp := (kept_port (s.updPort (fun p => { p with requests := rest })).port).clearSuspension e rfl
  exact K.perform _ (by rw [hp]; exact hc.1) (by rw [hp]; exact hc.2) (K.clearSuspension _ h1)

theorem serve (K : KeptAll P) (fuel : Nat) (h : P s) : P (s.serve fuel) := by
  induction fuel generalizing s with
  | zero => exact h
  | succ n ih =>
    unfold State.serve
    split
    · exact h
    · rename_i e rest hq
      split
      · rename_i hc
        exact ih (K.takeEntry e rest hq hc h)
      · exact h

theorem servePort (K : KeptAll P) (h : P s) : P s.servePort := K.serve _ h

theorem handBack (K : KeptAll P) (e : Quad) (r : Answer) (hi : s.port.inProgress.isSome = true) (h : P s) :
    P (s.handBack e r) := by
  refine K.servePort (K.flag _ _ (K.port _ _ (fun hb => ⟨hb.1, ?_, ?_⟩) h))
  · have := hb.2.2 hi
    simp only [List.length_append, List.length_cons, List.length_nil]
    omega
  · simp

theorem post (K : KeptAll P) (h : P s) : P s.post := by
  unfold State.post
  split
  · rename_i hlt
    refine K.servePort (K.port _ _ (fun hb => ⟨?_, hb.2⟩) h)
    simp only [List.length_append, List.length_cons, List.length_nil]
    omega
  · exact K.flag _ _ h

theorem popResult (K : KeptAll P) (h : P s) : P s.popResult := by
  refine K.servePort (K.port _ _ (fun hb => ⟨hb.1, ?_, fun hi => ?_⟩) h)
  · have := hb.2.1
    simp only [List.length_tail]
    omega
  · have := hb.2.2 hi
    simp only [List.length_tail]
    omega

theorem request (K : KeptAll P) (e : Quad) (h : P s) : P (s.request e) := K.post (K.port _ _ (fun hb => hb) h)

/-! ## The Placement Engine -/

theorem reserve (K : KeptAll P) (i : Nat) (g : Grant) (a : Nat) (h : P s) : P (s.reserve i g a) :=
  K.holdOneMore _ (K.freeQueue _ _ (K.grant _ _ _ h))

theorem returnRecord (K : KeptAll P) (i : Nat) (h : P s) : P (s.returnRecord i) :=
  K.holdOneFewer _ (K.freeQueue _ _ (K.grant _ _ _ h))

theorem placeNew (K : KeptAll P) (k : Nat → PlacementKind) (g : Grant) (a : Nat) (h : P s) : P (s.placeNew k g a) := by
  unfold State.placeNew
  exact K.engine _ _ (K.reserve _ _ _ h)

theorem takeCreate (K : KeptAll P) (e : Quad) (hi : s.port.inProgress.isSome = true) (h : P s) :
    P (s.takeCreate e) := by
  unfold State.takeCreate
  dsimp only
  split
  · exact K.handBack _ _ hi h
  · exact K.placeNew _ _ _ h

theorem takeResize (K : KeptAll P) (e : Quad) (hi : s.port.inProgress.isSome = true) (h : P s) :
    P (s.takeResize e) := by
  unfold State.takeResize
  dsimp only
  split
  · exact K.handBack _ _ hi h
  · exact K.engine _ _ h

theorem takeLocal (K : KeptAll P) (e : Quad) (hi : s.port.inProgress.isSome = true) (h : P s) :
    P (s.takeLocal e) := by
  unfold State.takeLocal
  split
  · exact K.takeResize _ hi (K.engine _ _ h)
  · exact K.takeCreate _ hi (K.engine _ _ h)

theorem setAsk (K : KeptAll P) (a : Nat) (x : AskStatus) (h : P s) : P (s.setAsk a x) := K.ask _ _ _ h

theorem answerAsk (K : KeptAll P) (a : Nat) (q : BitVec 4) (n : Notice) (h : P s) : P (s.answerAsk a q n) :=
  K.ask _ _ _ (K.handNotice _ _ h)

theorem takeAsk (K : KeptAll P) (q : Ask) (h : P s) : P (s.takeAsk q) := by
  unfold State.takeAsk
  dsimp only
  split
  · exact K.answerAsk _ _ _ (K.setAsk _ _ h)
  · exact K.placeNew _ _ _ (K.setAsk _ _ h)

theorem takeOnce (K : KeptAll P) (h : P s) : P s.takeOnce := by
  unfold State.takeOnce
  split
  · exact h
  · split
    · rename_i hp
      exact K.takeLocal _ (by simp [hp]) h
    · exact K.takeAsk _ (K.askQueue _ _ (by rename_i hq; show List.Sublist _ s.askQueue; rw [hq]; exact List.sublist_cons_self _ _) (K.engine _ _ h))
    · exact h

theorem takes (K : KeptAll P) (fuel : Nat) (h : P s) : P (s.takes fuel) := by
  induction fuel generalizing s with
  | zero => exact h
  | succ n ih =>
    unfold State.takes
    split
    · exact ih (K.takeOnce h)
    · exact h

theorem catchUp (K : KeptAll P) (h : P s) : P s.catchUp := K.takes _ h

theorem endPlacement (K : KeptAll P) (h : P s) : P s.endPlacement := K.engine _ _ h

theorem answerLocal (K : KeptAll P) (r : Answer) (h : P s) : P (s.answerLocal r) := by
  unfold State.answerLocal
  split
  · exact h
  · rename_i hp
    exact K.handBack _ _ (by simp [hp]) h

theorem abandon (K : KeptAll P) (c : Context) (h : P s) : P (s.abandon c) := by
  unfold State.abandon
  split
  · exact K.answerLocal _ (K.endPlacement (K.returnRecord _ h))
  · exact K.answerLocal _ (K.endPlacement h)
  · exact K.endPlacement (K.setAsk _ _ (K.returnRecord _ h))

theorem endNoRoom (K : KeptAll P) (c : Context) (h : P s) : P (s.endNoRoom c) := by
  unfold State.endNoRoom
  split
  · exact K.answerLocal _ (K.endPlacement (K.returnRecord _ h))
  · exact K.answerLocal _ (K.endPlacement h)
  · exact K.endPlacement (K.answerAsk _ _ _ (K.setAsk _ _ (K.returnRecord _ h)))

theorem retireVictim (K : KeptAll P) (hd : Handle) (h : P s) : P (s.retireVictim hd) := by
  unfold State.retireVictim
  dsimp only
  split
  · exact K.noticeRevoked _ _ _ _ (K.clearPlan _ h)
  · exact h

theorem advanceCommit (K : KeptAll P) (i : Nat) (h : P s) : P (s.advanceCommit i) := by
  unfold State.advanceCommit
  exact K.grant _ _ _ (K.counter _ _ h)

theorem takeSlots (K : KeptAll P) (i : Nat) (t : List Nat) (h : P s) : P (s.takeSlots i t) :=
  foldl_keeps (fun _ _ h => K.recordChange _ _ h) _ (foldl_keeps (fun _ _ h => K.recordChange _ _ h) _ h)

theorem commitClaim (K : KeptAll P) (i : Nat) (t : List Nat) (v : List Handle) (f : Grant → Grant) (h : P s) :
    P (s.commitClaim i t v f) :=
  K.complete _ (K.grant _ _ _ (K.takeSlots _ _ (K.advanceCommit _ (foldl_keeps (fun _ _ h => K.retireVictim _ h) _ h))))

theorem commit (K : KeptAll P) (c : Context) (t : List Nat) (v : List Handle) (h : P s) : P (s.commit c t v) := by
  unfold State.commit
  split
  · exact K.answerLocal _ (K.endPlacement (K.noticeOwner _ _ (K.commitClaim _ _ _ _ h)))
  · exact K.answerLocal _ (K.endPlacement (K.noticeOwner _ _ (K.commitClaim _ _ _ _ h)))
  · exact K.endPlacement (K.answerAsk _ _ _ (K.setAsk _ _ (K.commitClaim _ _ _ _ h)))

theorem endWith (K : KeptAll P) (c : Context) (h : P s) : P (s.endWith c) := by
  unfold State.endWith
  split
  · split
    · exact K.answerLocal _ (K.endPlacement h)
    · split
      · exact K.endNoRoom _ h
      · exact K.commit _ _ _ h
  · exact K.abandon _ h

theorem commitPoint (K : KeptAll P) (h : P s) : P s.commitPoint := by
  unfold State.commitPoint
  split
  · exact h
  · exact K.endWith _ h

/-! ## Uplink slots -/

theorem arriveAsk (K : KeptAll P) (a : Nat) (f : AskFields) (h : P s) : P (s.arriveAsk a f) := by
  unfold State.arriveAsk
  split
  · exact K.takeOnce (K.accept _ _ _ h)
  · exact K.accept _ _ _ h

theorem askFor (K : KeptAll P) (a : Nat) (f : AskFields) (h : P s) : P (s.askFor a f) := by
  unfold State.askFor
  split
  · exact h
  · split
    · split
      · exact h
      · exact K.refuseBusy _ _ h
    · exact K.arriveAsk _ _ h

theorem memberWord (K : KeptAll P) (a : Nat) (b : UplinkBody) (h : P s) : P (s.memberWord a b) := by
  unfold State.memberWord
  split
  · exact h
  · exact K.enterLeaving _ _ h
  · exact K.askFor _ _ h
  · exact K.dropFor _ _ h
  · exact K.renewFor _ _ _ h
  · exact K.enterLeaving _ _ h

theorem decodeWord (K : KeptAll P) (a : Nat) (ack : BitVec 4) (b : UplinkBody) (h : P s) : P (s.decodeWord a ack b) := by
  unfold State.decodeWord
  split
  · exact K.absentWord _ _ h
  · exact K.takeAck _ _ h
  · exact K.memberWord _ _ (K.takeAck _ _ h)
  · exact h
  · exact h

theorem receiveWord (K : KeptAll P) (a : Nat) (w : Word) (h : P s) : P (s.receiveWord a w) := by
  unfold State.receiveWord
  dsimp only
  split
  · split
    · exact K.station _ _ _ (K.returnFromQuiet _ (K.markHeard _ h))
    · exact K.decodeWord _ _ _ (K.returnFromQuiet _ (K.markHeard _ h))
  · exact K.station _ _ _ (K.markHeard _ h)

theorem uplinkSlot (K : KeptAll P) (a : Nat) (x : Sense) (w : Word) (h : P s) : P (s.uplinkSlot a x w) := by
  unfold State.uplinkSlot
  split
  · unfold State.silentUplink
    split
    · exact K.testThresholds _ (K.station _ _ _ h)
    · exact h
  · exact K.receiveWord _ _ h
  · exact K.flag _ _ (K.station _ _ _ (K.markHeard _ h))

/-! ## The downlink and the Slot Monitor -/

theorem serveStation (K : KeptAll P) (a : Nat) (h : P s) : P (s.serveStation a) := by
  unfold State.serveStation
  dsimp only
  split
  · exact h
  · refine K.downlink _ _ _ (K.mailbox _ _ _ (fun hb => ?_) h)
    split
    · simp only [Mailbox.sentLeft, Mailbox.removeHead, List.length_tail]
      omega
    · exact hb

theorem examine (K : KeptAll P) (l : List Nat) (n : Nat) (h : P s) : P (State.examine l n s) := by
  induction l generalizing s n with
  | nil => cases n <;> exact h
  | cons a l ih =>
    cases n with
    | zero => exact h
    | succ n =>
      unfold State.examine
      split
      · split
        · refine ih _ ?_
          unfold State.reportNoAck
          split
          · exact K.failJoin _ _ h
          · exact K.enterLeaving _ _ h
        · exact ih _ (K.serveStation _ h)
      · exact ih _ h

theorem arbitrate (K : KeptAll P) (h : P s) : P s.arbitrate := K.examine _ _ (K.downlink _ _ _ h)

theorem countIntrusion (K : KeptAll P) (h : P s) : P s.countIntrusion := K.flag _ _ (K.intrusions _ _ h)

theorem taintClaim (K : KeptAll P) (n : Nat) (f : BitVec 8) (h : P s) : P (s.taintClaim n f) :=
  K.taint _ _ (fun hw => Table.wf_put hw _ _) h

theorem chargeFault (K : KeptAll P) (i : Nat) (h : P s) : P (s.chargeFault i) := by
  unfold State.chargeFault
  dsimp only
  split
  · unfold State.retireFaulted State.reportFault
    dsimp only
    split
    · exact K.flag _ _ (K.retire _ _ (K.grant _ _ _ h))
    · split
      · exact K.setSuspended _ _ (K.flag _ _ (K.retire _ _ (K.grant _ _ _ h)))
      · exact K.flag _ _ (K.retire _ _ (K.grant _ _ _ h))
  · exact K.grant _ _ _ h

theorem payloadSlot (K : KeptAll P) (n : Nat) (x : Sense) (h : P s) : P (s.payloadSlot n x) := by
  have hi : P (s.intrude n) := by
    unfold State.intrude
    dsimp only
    split
    · exact K.countIntrusion h
    · exact K.taintClaim _ _ (K.countIntrusion h)
  unfold State.payloadSlot
  split
  · exact h
  · exact K.grant _ _ _ h
  · exact K.chargeFault _ h
  · exact hi
  · exact hi

theorem overheadSlot (K : KeptAll P) (x : Sense) (h : P s) : P (s.overheadSlot x) := by
  unfold State.overheadSlot
  split
  · exact h
  · exact K.countIntrusion h
  · exact K.countIntrusion h

/-! ## The Frame Timer -/

theorem swap (K : KeptAll P) (e : Epoch) (he : s.map.sealedEpoch = some e) (h : P s) : P (s.swap e) := by
  refine K.flag _ _ (K.complete _ (foldl_keeps (fun c s h => ?_) _ (K.swapMap e s he h)))
  have hd : P (s.activeCountDown c.2.fromOwner) := by
    unfold State.activeCountDown
    split
    · exact h
    · exact K.grant _ _ _ h
  unfold State.activeCountUp
  split
  · exact hd
  · exact K.grant _ _ _ hd

theorem epochsAtStart (K : KeptAll P) (h : P s) : P s.epochsAtStart := by
  have tail : ∀ s, P s → P (match s.map.openEpoch with
      | some e => if e.sealFrame = s.timer.fn ∧ s.map.sealedEpoch = none then s.sealOpen else s
      | none => s) := by
    intro s h
    split
    · split
      · rename_i hc
        exact K.sealOpen _ hc.2 h
      · exact h
    · exact h
  unfold State.epochsAtStart
  refine tail _ ?_
  split
  · rename_i e he
    split
    · exact K.swap _ he h
    · exact h
  · exact h

theorem goTo (K : KeptAll P) (p : FramePlace) (h : P s) : P (s.goTo p) := K.timer _ _ h

theorem frameStart (K : KeptAll P) (h : P s) : P s.frameStart := K.goTo _ (K.epochsAtStart h)

theorem highwayStart (K : KeptAll P) (h : P s) : P s.highwayStart := by
  unfold State.highwayStart
  split
  · exact K.frameStart (K.timer _ _ h)
  · exact h

theorem decayTaint (K : KeptAll P) (h : P s) : P s.decayTaint := K.taint _ _ (fun hw => Table.wf_mapValues hw _) h

theorem frameEnd (K : KeptAll P) (p : EndParts) (h : P s) : P (s.frameEnd p) := by
  have one : ∀ (b : Bool) (u v : State), P u → P v → P (if b then u else v) := by
    intro b u v hu hv
    cases b
    · exact hv
    · exact hu
  have h1 := one p.leases _ _ h (K.tickIfDue h)
  have h2 := one p.taint _ _ h1 (K.decayTaint h1)
  exact K.timer _ _ (one p.notices _ _ h2 (K.countDown _ h2))

theorem endIfDue (K : KeptAll P) (h : P s) : P s.endIfDue := by
  unfold State.endIfDue
  split
  · exact K.frameEnd _ h
  all_goals exact h

theorem startIfDue (K : KeptAll P) (h : P s) : P s.startIfDue := by
  unfold State.startIfDue
  split
  · exact K.frameStart h
  · exact h

theorem arbitrateIfDue (K : KeptAll P) (h : P s) : P s.arbitrateIfDue := by
  unfold State.arbitrateIfDue
  split
  · exact K.goTo _ (K.arbitrate h)
  · exact h

theorem slotEventAt (K : KeptAll P) (n : Nat) (x : Sense) (w : Word) (h : P s) : P (s.slotEventAt n x w) := by
  refine K.goTo _ ?_
  unfold State.closeSlot
  split
  · exact K.overheadSlot _ h
  · exact K.uplinkSlot _ _ _ h
  · exact K.overheadSlot _ h
  · exact K.payloadSlot _ _ h

theorem slotEvent (K : KeptAll P) (x : Sense) (w : Word) (h : P s) : P (s.slotEvent x w) := by
  have h' : P s.reachSlot := K.arbitrateIfDue (K.startIfDue (K.endIfDue h))
  unfold State.slotEvent
  dsimp only
  split
  · exact K.slotEventAt _ _ _ h'
  all_goals exact h'

theorem uplinkWordEvent (K : KeptAll P) (w : Word) (h : P s) : P (s.uplinkWordEvent w) := by
  unfold State.uplinkWordEvent
  split
  · split
    · exact K.slotEventAt _ _ _ h
    · exact h
  all_goals exact h

theorem takeTick (K : KeptAll P) (b : Bool) (h : P s) : P (s.takeTick b) := by
  unfold State.takeTick
  split
  · exact h
  · split
    · exact K.goTo _ (K.tick h)
    · exact h

theorem takeDecay (K : KeptAll P) (b : Bool) (h : P s) : P (s.takeDecay b) := by
  unfold State.takeDecay
  split
  · exact h
  · split
    · exact K.goTo _ (K.decayTaint h)
    · exact h

theorem takeCountdowns (K : KeptAll P) (b : Bool) (h : P s) : P (s.takeCountdowns b) := by
  unfold State.takeCountdowns
  split
  · exact h
  · split
    · exact K.goTo _ (K.countDown _ h)
    · exact h

theorem expireTaint (K : KeptAll P) (n : Nat) (h : P s) : P (s.expireTaint n) := K.takeDecay _ h

theorem expireCountdown (K : KeptAll P) (a : Nat) (h : P s) : P (s.expireCountdown a) := K.takeCountdowns _ h

theorem expireHoldoff (K : KeptAll P) (a : Nat) (h : P s) : P (s.expireHoldoff a) := K.takeCountdowns _ h

theorem leaseTick (K : KeptAll P) (h : P s) : P s.leaseTick := K.takeTick _ h

theorem leaseExpired (K : KeptAll P) (i : Nat) (h : P s) : P (s.leaseExpired i) := K.takeTick _ h

end KeptAll

/-! ## Every command -/

/-- A property that every write of the part keeps: `KeptAll`, with the legal writes of the configuration, the interrupt
registers and the read data, the frame length, and the states of a reset. -/
structure KeptByAll (P : State → Prop) : Prop extends KeptAll P where
  config : ∀ f s, (s.cfg.legal → (f s.cfg).legal) → P s → P (s.updCfg f)
  ints : ∀ x s, P s → P { s with ints := x }
  readData : ∀ x s, P s → P { s with readData := x }
  fromReset : ∀ b c s, P s → P
    { State.reset with inReset := b, timer := { State.reset.timer with code := c }, pending := s.pending }

namespace KeptByAll

theorem event (K : KeptByAll P) {f : State → State} (hf : ∀ s, P s → P (f s)) {t : State} (ht : s.event f = .next t)
    (h : P s) : P t := by
  unfold State.event at ht
  injection ht with ht
  subst ht
  split
  · exact h
  · split
    · exact hf _ h
    · exact hf _ (K.catchUp h)

theorem readAccess (K : KeptByAll P) (a : BitVec 6) (h : P s) : P (s.readAccess a) :=
  K.ints (if a = 0x0E then s.ints.afterRead else s.ints) _ (K.readData (s.registerRead a) s h)

theorem writeIntFlags (K : KeptByAll P) (w : Word) (h : P s) : P (s.writeIntFlags w) := K.ints _ _ h

theorem writeIntEnable (K : KeptByAll P) (w : Word) (h : P s) : P (s.writeIntEnable w) := K.ints _ _ h

theorem configure (K : KeptByAll P) {b : Bool} {f : State → State} (hf : b = true → P (f s)) (h : P s) :
    P (s.configure b f) := by
  unfold State.configure
  split
  · rename_i hb
    exact hf hb
  · exact K.flag _ _ h

theorem writeFrameLength (K : KeptByAll P) (w : Word) (h : P s) : P (s.writeFrameLength w) :=
  K.configure (fun _ => K.taint .empty _ (fun _ => Table.wf_empty _) (K.timer _ _ h)) h

theorem writeEpochLead (K : KeptByAll P) (w : Word) (h : P s) : P (s.writeEpochLead w) := by
  refine K.configure (fun hb => K.config _ _ (fun hl => ⟨?_, hl.2⟩) h) h
  simp only [Bool.and_eq_true, leadValid, beq_iff_eq, decide_eq_true_eq] at hb
  exact hb.2

theorem writePresenceLimits (K : KeptByAll P) (w : Word) (h : P s) : P (s.writePresenceLimits w) := by
  refine K.configure (fun hb => K.config _ _ (fun hl => ⟨hl.1, ?_, hl.2.2⟩) h) h
  simpa only [limitsValid, Bool.and_eq_true, decide_eq_true_eq] using hb

theorem writeNoticeTiming (K : KeptByAll P) (w : Word) (h : P s) : P (s.writeNoticeTiming w) := by
  refine K.configure (fun hb => K.config _ _ (fun hl => ⟨hl.1, hl.2.1, ?_, hl.2.2.2⟩) h) h
  simp only [Bool.and_eq_true, bne_iff_ne, ne_eq] at hb
  exact ⟨Nat.one_le_iff_ne_zero.2 (fun he => hb.1 (BitVec.eq_of_toNat_eq (by simpa using he))),
    Nat.one_le_iff_ne_zero.2 (fun he => hb.2 (BitVec.eq_of_toNat_eq (by simpa using he)))⟩

theorem writeFaultLimit (K : KeptByAll P) (w : Word) (h : P s) : P (s.writeFaultLimit w) := by
  refine K.configure (fun hb => K.config _ _ (fun hl => ⟨hl.1, hl.2.1, hl.2.2.1, ?_⟩) h) h
  simp only [bne_iff_ne, ne_eq] at hb
  exact Nat.one_le_iff_ne_zero.2 (fun he => hb (BitVec.eq_of_toNat_eq (by simpa using he)))

theorem writeControl (K : KeptByAll P) (w : Word) (h : P s) : P (s.writeControl w) := K.timer _ _ h

theorem writeStaging (K : KeptByAll P) (k : Nat) (w : Word) (h : P s) : P (s.writeStaging k w) :=
  K.port _ _ (fun hb => hb) h

theorem busWrite (K : KeptByAll P) (a : BitVec 6) (w : Word) (h : P s) : P (s.busWrite a w) := by
  unfold State.busWrite
  split
  · exact K.writeControl _ h
  · exact K.writeFrameLength _ h
  · exact K.writeEpochLead _ h
  · exact K.writePresenceLimits _ h
  · exact K.writeNoticeTiming _ h
  · exact K.config _ _ (fun hl => hl) h
  · exact K.config _ _ (fun hl => hl) h
  · exact K.writeFaultLimit _ h
  · exact K.config _ _ (fun hl => hl) h
  · exact K.config _ _ (fun hl => hl) h
  · exact K.ints _ _ h
  · exact K.ints _ _ h
  · exact K.intrusions _ _ h
  · exact K.post h
  · exact K.popResult h
  · split
    · exact K.config _ _ (fun hl => hl) h
    · split
      · exact K.writeStaging _ _ h
      · exact h

end KeptByAll

/-- Every command keeps a property that every write keeps. -/
theorem exec_keeps (K : KeptByAll P) {c : Instr} {t : State} (ht : exec c s = .next t) (h : P s) : P t := by
  cases c with
  | deviceReset =>
    simp only [exec, execDeviceReset] at ht
    injection ht with ht
    subst ht
    exact K.fromReset true .l256 s h
  | resetRelease flen =>
    simp only [exec, execResetRelease] at ht
    injection ht with ht
    subst ht
    split
    · exact K.fromReset false _ s h
    · exact h
  | highwayStart => exact K.event (fun _ h => K.highwayStart h) ht h
  | frameStart => exact K.event (fun _ h => K.startIfDue (K.endIfDue h)) ht h
  | departureComplete a => exact K.event (fun _ h => K.departIfDone _ h) ht h
  | slotEvent a w => exact K.event (fun _ h => K.slotEvent _ _ h) ht h
  | keep a => exact K.event (fun _ h => K.uplinkWordEvent _ h) ht h
  | join a => exact K.event (fun _ h => K.uplinkWordEvent _ h) ht h
  | ask a f => exact K.event (fun _ h => K.uplinkWordEvent _ h) ht h
  | drop a f => exact K.event (fun _ h => K.uplinkWordEvent _ h) ht h
  | renewWord a f l => exact K.event (fun _ h => K.uplinkWordEvent _ h) ht h
  | leave a => exact K.event (fun _ h => K.uplinkWordEvent _ h) ht h
  | downlinkArbitration => exact K.event (fun _ h => K.arbitrateIfDue h) ht h
  | frameEnd => exact K.event (fun _ h => K.endIfDue h) ht h
  | taintExpired n => exact K.event (fun _ h => K.expireTaint _ h) ht h
  | retryCountdownExpired a => exact K.event (fun _ h => K.expireCountdown _ h) ht h
  | strayHoldoffExpired a => exact K.event (fun _ h => K.expireHoldoff _ h) ht h
  | leaseTick => exact K.event (fun _ h => K.leaseTick h) ht h
  | leaseExpired i => exact K.event (fun _ h => K.leaseExpired _ h) ht h
  | placementTake =>
    simp only [exec, execPlacementTake] at ht
    injection ht with ht
    subst ht
    split
    · exact h
    · exact K.takeOnce h
  | commitPoint =>
    simp only [exec, execCommitPoint] at ht
    injection ht with ht
    subst ht
    split
    · exact h
    · exact K.commitPoint (K.catchUp h)
  | create a b => exact K.event (fun _ h => K.request _ h) ht h
  | resize a b c => exact K.event (fun _ h => K.request _ h) ht h
  | release a b => exact K.event (fun _ h => K.request _ h) ht h
  | renew a b c d => exact K.event (fun _ h => K.request _ h) ht h
  | setStation a b c d => exact K.event (fun _ h => K.request _ h) ht h
  | evict a => exact K.event (fun _ h => K.request _ h) ht h
  | retireAll a => exact K.event (fun _ h => K.request _ h) ht h
  | lookupGrant a b => exact K.event (fun _ h => K.request _ h) ht h
  | lookupSlot a b => exact K.event (fun _ h => K.request _ h) ht h
  | lookupStation a => exact K.event (fun _ h => K.request _ h) ht h
  | listSlots a b c d => exact K.event (fun _ h => K.request _ h) ht h
  | census a => exact K.event (fun _ h => K.request _ h) ht h
  | unknownOp a b => exact K.event (fun _ h => K.request _ h) ht h
  | rqpost a => exact K.event (fun _ h => K.post h) ht h
  | rspop a => exact K.event (fun _ h => K.popResult h) ht h
  | runRequest => exact K.event (fun _ h => K.timer _ _ h) ht h
  | stopRequest => exact K.event (fun _ h => K.timer _ _ h) ht h
  | frameLengthWrite w => exact K.event (fun _ h => K.writeFrameLength _ h) ht h
  | epochLeadWrite w => exact K.event (fun _ h => K.writeEpochLead _ h) ht h
  | presenceLimitsWrite w => exact K.event (fun _ h => K.writePresenceLimits _ h) ht h
  | noticeTimingWrite w => exact K.event (fun _ h => K.writeNoticeTiming _ h) ht h
  | faultLimitWrite w => exact K.event (fun _ h => K.writeFaultLimit _ h) ht h
  | intrusionCountWrite w => exact K.event (fun _ h => K.intrusions _ _ h) ht h
  | intFlagsRead => exact K.event (fun _ h => K.readAccess _ h) ht h
  | intFlagsWrite w => exact K.event (fun _ h => K.writeIntFlags _ h) ht h
  | intEnableWrite w => exact K.event (fun _ h => K.writeIntEnable _ h) ht h
  | registerWrite a w => exact K.event (fun _ h => K.busWrite _ _ h) ht h

/-- Every step keeps a property that every write keeps, if taking a command off the queue keeps it. -/
theorem step_keeps (K : KeptByAll P) (hq : ∀ q s, P s → P { s with pending := q }) {t : State}
    (ht : step s = .next t) (h : P s) : P t := by
  unfold step at ht
  split at ht
  · injection ht with ht
    exact ht ▸ h
  · exact exec_keeps K ht (hq _ _ h)

end Sys2Proof.Machine
end

