-- ==== Sys2Proof/Laws/Frames.lean ====
section
/-! SUPPORT. What claims and what whole events leave alone: an instance of `Kept` or `KeptAll` for each field; how an event
reads where no take is due; what each part of a frame end does as a step of its own; the idle ticks of a tick; what an ask
does at its acceptance; and what a commit does to a victim. -/

namespace Sys2Proof.Machine

/-! ## Fields that no claim touches -/

theorem kept_timer (x : Timer) : Kept (fun s => s.timer = x) where
  grant _ _ _ h := h
  station _ _ _ h := h
  ask _ _ _ h := h
  mailbox _ _ _ _ h := h
  flag _ _ h := h
  freeQueue _ _ h := h
  askQueue _ _ _ h := h
  record _ _ _ _ h := by simpa using h

theorem kept_cfg (x : Registers) : Kept (fun s => s.cfg = x) where
  grant _ _ _ h := h
  station _ _ _ h := h
  ask _ _ _ h := h
  mailbox _ _ _ _ h := h
  flag _ _ h := h
  freeQueue _ _ h := h
  askQueue _ _ _ h := h
  record _ _ _ _ h := by simpa using h

theorem kept_commitCounter (x : BitVec 32) : Kept (fun s => s.commitCounter = x) where
  grant _ _ _ h := h
  station _ _ _ h := h
  ask _ _ _ h := h
  mailbox _ _ _ _ h := h
  flag _ _ h := h
  freeQueue _ _ h := h
  askQueue _ _ _ h := h
  record _ _ _ _ h := by simpa using h

theorem kept_engine (x : Engine) : Kept (fun s => s.engine = x) where
  grant _ _ _ h := h
  station _ _ _ h := h
  ask _ _ _ h := h
  mailbox _ _ _ _ h := h
  flag _ _ h := h
  freeQueue _ _ h := h
  askQueue _ _ _ h := h
  record _ _ _ _ h := by simpa using h

theorem kept_downlink (x : List Word) : Kept (fun s => s.downlink = x) where
  grant _ _ _ h := h
  station _ _ _ h := h
  ask _ _ _ h := h
  mailbox _ _ _ _ h := h
  flag _ _ h := h
  freeQueue _ _ h := h
  askQueue _ _ _ h := h
  record _ _ _ _ h := by simpa using h

theorem kept_active (x : Table Owner) : Kept (fun s => s.map.active = x) where
  grant _ _ _ h := h
  station _ _ _ h := h
  ask _ _ _ h := h
  mailbox _ _ _ _ h := h
  flag _ _ h := h
  freeQueue _ _ h := h
  askQueue _ _ _ h := h
  record _ _ s _ h := by
    show s.openIfNone.map.active = x
    simpa using h

theorem kept_taint (x : Table (BitVec 8)) : Kept (fun s => s.map.taint = x) where
  grant _ _ _ h := h
  station _ _ _ h := h
  ask _ _ _ h := h
  mailbox _ _ _ _ h := h
  flag _ _ h := h
  freeQueue _ _ h := h
  askQueue _ _ _ h := h
  record _ _ s _ h := by
    show s.openIfNone.map.taint = x
    simpa using h

theorem kept_sealed (x : Option Epoch) : Kept (fun s => s.map.sealedEpoch = x) where
  grant _ _ _ h := h
  station _ _ _ h := h
  ask _ _ _ h := h
  mailbox _ _ _ _ h := h
  flag _ _ h := h
  freeQueue _ _ h := h
  askQueue _ _ _ h := h
  record _ _ s _ h := by
    show s.openIfNone.map.sealedEpoch = x
    simpa using h

/-! ## Fields that no event of the highway, the engine or the port touches -/

theorem keptAll_cfg (x : Registers) : KeptAll (fun s => s.cfg = x) where
  toKept := kept_cfg x
  accept _ _ _ h := h
  counter _ _ h := h
  engine _ _ h := h
  port _ _ _ h := h
  downlink _ _ _ h := h
  intrusions _ _ h := h
  taint _ _ _ h := h
  swapMap _ _ _ h := h
  sealOpen _ _ h := h
  countDown _ h := h
  timer _ _ h := h

theorem keptAll_inReset (x : Bool) : KeptAll (fun s => s.inReset = x) where
  grant _ _ _ h := h
  station _ _ _ h := h
  ask _ _ _ h := h
  mailbox _ _ _ _ h := h
  flag _ _ h := h
  freeQueue _ _ h := h
  askQueue _ _ _ h := h
  record _ _ _ _ h := by simpa using h
  accept _ _ _ h := h
  counter _ _ h := h
  engine _ _ h := h
  port _ _ _ h := h
  downlink _ _ _ h := h
  intrusions _ _ h := h
  taint _ _ _ h := h
  swapMap _ _ _ h := h
  sealOpen _ _ h := h
  countDown _ h := h
  timer _ _ h := h

/-! ## Events -/

/-- With no take due, nothing comes before an event. -/
theorem catchUp_of_not_due {s : State} (h : s.takeDue = false) : s.catchUp = s := by
  unfold State.catchUp State.workWaiting State.takes
  simp [h]

/-- An event with RESETn HIGH that the queue does not put right before a take: the takes that are due come first. -/
theorem event_next {f : State → State} {s : State} (h : s.inReset = false)
    (hq : s.pending.head? ≠ some .placementTake) : s.event f = .next (f s.catchUp) := by
  simp [State.event, State.precedesTake, h, hq]

/-- An event with RESETn HIGH that the queue puts right before a take, and that hands the engine no work: it comes first. -/
theorem event_next_of_precedes {f : State → State} {s : State} (h : s.inReset = false)
    (hq : s.pending.head? = some .placementTake) (hw : s.broughtWork (f s) = false) : s.event f = .next (f s) := by
  simp [State.event, State.precedesTake, h, hq, hw]

/-- An event with RESETn HIGH and no take due. -/
theorem event_next_of_not_due {f : State → State} {s : State} (h : s.inReset = false) (hd : s.takeDue = false) :
    s.event f = .next (f s) := by
  simp [State.event, h, catchUp_of_not_due hd]

/-! ## The pins -/

/-- IRQn with RESETn HIGH and no take due: LOW where a flag and its enable are both 1 (R186). -/
theorem irqn_of_not_due {s : State} (h : s.inReset = false) (hd : s.takeDue = false) : s.irqn = !s.ints.asserted := by
  simp [State.irqn, h, catchUp_of_not_due hd]

/-! ## The parts of a frame end (log 8) -/

theorem partsTaken_of_endDue {s : State} {p : EndParts} (h : s.timer.timing = .running (.endDue p)) :
    s.partsTaken = some p := by
  simp [State.partsTaken, Timer.place, h]

theorem frameEnd_of_endDue {s : State} {p : EndParts} (h : s.timer.timing = .running (.endDue p)) :
    s.endIfDue = s.frameEnd p := by
  simp [State.endIfDue, Timer.place, h]

/-- The lease tick as a step of its own: every record's, where a tick is due and not taken, and nothing else (R85). -/
theorem takeTick_eq (b : Bool) (s : State) :
    s.takeTick b = match s.partsTaken with
      | none => s
      | some p => if b = true ∧ s.timer.tickFrame = true ∧ p.leases = false then
          s.tick.goTo (.endDue { p with leases := true }) else s := by
  unfold State.takeTick
  cases s.partsTaken with
  | none => rfl
  | some p => cases b <;> cases s.timer.tickFrame <;> cases h : p.leases <;> simp [h]

/-- The taint counts as a step of their own: every count's decrement, where not taken, and nothing else (R37). -/
theorem takeDecay_eq (b : Bool) (s : State) :
    s.takeDecay b = match s.partsTaken with
      | none => s
      | some p => if b = true ∧ p.taint = false then s.decayTaint.goTo (.endDue { p with taint := true }) else s := by
  unfold State.takeDecay
  cases s.partsTaken with
  | none => rfl
  | some p => cases b <;> cases h : p.taint <;> simp [h]

/-- The notice countdowns as a step of their own: every one's decrement, where not taken, and nothing else (R138, R142). -/
theorem takeCountdowns_eq (b : Bool) (s : State) :
    s.takeCountdowns b = match s.partsTaken with
      | none => s
      | some p => if b = true ∧ p.notices = false then
          s.countDownNotices.goTo (.endDue { p with notices := true }) else s := by
  unfold State.takeCountdowns
  cases s.partsTaken with
  | none => rfl
  | some p => cases b <;> cases h : p.notices <;> simp [h]

/-! ## Idle ticks and the notices of a tick (R86, R90) -/

@[simp] theorem idleAfter_used {g : Grant} (h : g.usedThisTick = true) : g.idleAfter = 0 := by simp [Grant.idleAfter, h]

@[simp] theorem idleAfter_unused {g : Grant} (h : g.usedThisTick = false) : g.idleAfter = satInc g.idleTicks := by
  simp [Grant.idleAfter, h]

theorem idled_idleTicks (g : Grant) : g.idled.idleTicks = g.idleAfter := rfl

/-- A record that is not counted draws no notice. -/
theorem tickNotices_of_uncounted {i : Nat} {s t : State} (h : ¬ ((s.grant i).state = .live ∨ (s.grant i).state = .shifting)) :
    s.tickNotices i t = [] := by
  simp only [State.tickNotices, h, if_false]

/-! ## An ask accepted (R122) -/

/-- A BUSY engine leaves the ask waiting. -/
theorem arriveAsk_of_busy {s : State} (a : Nat) (f : AskFields) (h : s.engine.context.isSome = true) :
    s.arriveAsk a f = s.acceptAsk a f := by
  cases k : s.engine.context with
  | none => simp [k] at h
  | some c => simp [State.arriveAsk, k]

/-- An IDLE engine with no work waiting takes the ask in its own event. -/
theorem arriveAsk_of_idle {s : State} (a : Nat) (f : AskFields) (h : s.engine.context = none) (hd : s.takeDue = false) :
    s.arriveAsk a f = (s.acceptAsk a f).takeOnce := by
  have hw : s.workChosen.isNone = true := by
    simp only [State.takeDue, h, Option.isNone_none, Bool.true_and] at hd
    cases k : s.workChosen with
    | none => rfl
    | some x => simp [k] at hd
  simp [State.arriveAsk, h, hw]

/-! ## Victims (R47, R80) -/

theorem retireVictim_of_stands {s : State} {h : Handle} (k : s.victimStands h = true) :
    s.retireVictim h = State.noticeRevoked (some .preempted) (s.grant h.index.toNat).owner h h.index.toNat
      (s.clearPlan h.index.toNat) := by
  simp [State.retireVictim, k]

theorem retireVictim_of_skipped {s : State} {h : Handle} (k : s.victimStands h = false) : s.retireVictim h = s := by
  simp [State.retireVictim, k]

end Sys2Proof.Machine
end

