-- ==== Sys2Proof/Laws/Claims.lean ====
section
/-! SUPPORT. What the operations of a claim do, each said once: recording a change (R42), clearing a grant's PLAN slots (R45
step 1), re-deriving and freeing (R24 to R26), the completion (R44) and a retire claim on one grant (R45). -/

namespace Sys2Proof.Machine

variable (s : State)

/-! ## What the recording of changes may touch -/

/-- `t` is `s` but for grant records, station records and the Slot Map. -/
def PlanOnly (s t : State) : Prop := t = { s with grants := t.grants, stations := t.stations, map := t.map }

theorem PlanOnly.refl : PlanOnly s s := rfl

theorem PlanOnly.trans {s t u : State} (h : PlanOnly s t) (k : PlanOnly t u) : PlanOnly s u := by
  unfold PlanOnly at *
  rw [k, h]

theorem PlanOnly.foldl {α : Type} {f : State → α → State} (h : ∀ s x, PlanOnly s (f s x)) (l : List α) (s : State) :
    PlanOnly s (l.foldl f s) := by
  induction l generalizing s with
  | nil => exact .refl s
  | cons x l ih => exact (h s x).trans (ih _)

theorem planOnly_planOneFewer (o : Option Nat) : PlanOnly s (s.planOneFewer o) := by cases o <;> rfl

theorem planOnly_planOneMore (o : Option Nat) : PlanOnly s (s.planOneMore o) := by cases o <;> rfl

theorem planOnly_planCountDown (o : Owner) : PlanOnly s (s.planCountDown o) := by
  cases o with
  | none => rfl
  | some i =>
    have h : PlanOnly s (s.updGrant i (fun g => { g with planCount := g.planCount - 1 })) := rfl
    exact h.trans (planOnly_planOneFewer _ _)

theorem planOnly_planCountUp (o : Owner) : PlanOnly s (s.planCountUp o) := by
  cases o with
  | none => rfl
  | some i =>
    have h : PlanOnly s (s.updGrant i (fun g => { g with planCount := g.planCount + 1 })) := rfl
    exact h.trans (planOnly_planOneMore _ _)

theorem planOnly_openIfNone : PlanOnly s s.openIfNone := by
  unfold State.openIfNone
  split <;> rfl

theorem planOnly_recordChange (n : Nat) (y : Owner) : PlanOnly s (s.recordChange n y) := by
  simp only [State.recordChange]
  split
  · rfl
  · have h : ∀ (u : State) f, PlanOnly u (u.updMap f) := fun _ _ => rfl
    exact (((planOnly_openIfNone s).trans (h _ _)).trans (planOnly_planCountDown _ _)).trans (planOnly_planCountUp _ _)

theorem planOnly_clearPlan (i : Nat) : PlanOnly s (s.clearPlan i) :=
  PlanOnly.foldl (fun s n => planOnly_recordChange s n none) _ s

/-! ## Recording a change (R42) -/

@[simp] theorem map_planOneFewer (o : Option Nat) : (s.planOneFewer o).map = s.map := by cases o <;> rfl

@[simp] theorem map_planOneMore (o : Option Nat) : (s.planOneMore o).map = s.map := by cases o <;> rfl

@[simp] theorem map_planCountDown (o : Owner) : (s.planCountDown o).map = s.map := by
  cases o <;> simp [State.planCountDown]

@[simp] theorem map_planCountUp (o : Owner) : (s.planCountUp o).map = s.map := by
  cases o <;> simp [State.planCountUp]

@[simp] theorem grants_planOneFewer (o : Option Nat) : (s.planOneFewer o).grants = s.grants := by cases o <;> rfl

@[simp] theorem grants_planOneMore (o : Option Nat) : (s.planOneMore o).grants = s.grants := by cases o <;> rfl

/-- The slot gets its new owner in PLAN, and every other slot keeps its own. -/
theorem planAt_recordChange (n m : Nat) (y : Owner) :
    (s.recordChange n y).planAt m = if m = n then y else s.planAt m := by
  simp only [State.recordChange]
  split
  · rename_i h
    split
    · rename_i hm
      rw [hm, h]
    · rfl
  · simp only [State.planAt, map_planCountUp, map_planCountDown, State.map_updMap, SlotMap.recordIn,
      State.plan_openIfNone, Table.get_put]

theorem grant_planCountDown (o : Owner) (j : Nat) : (s.planCountDown o).grant j =
    if o = some j then { s.grant j with planCount := (s.grant j).planCount - 1 } else s.grant j := by
  cases o with
  | none => rfl
  | some i =>
    rw [State.grant_congr (s := s.updGrant i (fun g => { g with planCount := g.planCount - 1 }))
      (by simp [State.planCountDown]), State.grant_updGrant]
    by_cases h : j = i
    · subst h
      simp
    · rw [if_neg h, if_neg (fun e => h (Option.some.inj e).symm)]

theorem grant_planCountUp (o : Owner) (j : Nat) : (s.planCountUp o).grant j =
    if o = some j then { s.grant j with planCount := (s.grant j).planCount + 1 } else s.grant j := by
  cases o with
  | none => rfl
  | some i =>
    rw [State.grant_congr (s := s.updGrant i (fun g => { g with planCount := g.planCount + 1 }))
      (by simp [State.planCountUp]), State.grant_updGrant]
    by_cases h : j = i
    · subst h
      simp
    · rw [if_neg h, if_neg (fun e => h (Option.some.inj e).symm)]

/-- The old owner's planCount goes down by 1 and the new owner's up, where they differ. -/
theorem grant_recordChange (n : Nat) (y : Owner) (j : Nat) : (s.recordChange n y).grant j =
    if s.planAt n = y then s.grant j
    else if y = some j then { s.grant j with planCount := (s.grant j).planCount + 1 }
    else if s.planAt n = some j then { s.grant j with planCount := (s.grant j).planCount - 1 } else s.grant j := by
  simp only [State.recordChange]
  split
  · rfl
  · rename_i h
    have hg : ∀ f, (s.openIfNone.updMap f).grant j = s.grant j := fun f => State.grant_congr (by simp) j
    rw [grant_planCountUp, grant_planCountDown, hg]
    split
    · rename_i hy
      rw [if_neg (fun e => h (e.trans hy.symm))]
    · rfl

/-! ## Clearing a grant's PLAN slots (R45 step 1) -/

theorem planAt_clears (l : List Nat) (m : Nat) :
    (l.foldl (fun s n => s.recordChange n none) s).planAt m = if m ∈ l then none else s.planAt m := by
  induction l generalizing s with
  | nil => simp
  | cons n l ih =>
    rw [List.foldl_cons, ih, planAt_recordChange]
    by_cases h : m ∈ l <;> by_cases hn : m = n <;> simp [h, hn]

/-- PLAN names the grant in no payload slot any more, and every other entry stays. -/
theorem planAt_clearPlan (i m : Nat) :
    (s.clearPlan i).planAt m = if m ∈ s.planSlots i then none else s.planAt m := planAt_clears s _ m

theorem grant_clears (i : Nat) (l : List Nat) (hd : l.Nodup) (h : ∀ n ∈ l, s.planAt n = some i) (j : Nat) :
    (l.foldl (fun s n => s.recordChange n none) s).grant j =
      if j = i then { s.grant i with planCount := (s.grant i).planCount - l.length } else s.grant j := by
  induction l generalizing s with
  | nil =>
    by_cases hj : j = i
    · subst hj
      simp
    · simp [hj]
  | cons n l ih =>
    rw [List.nodup_cons] at hd
    have hn : s.planAt n = some i := h n (by simp)
    have hg : ∀ k, (s.recordChange n none).grant k =
        if k = i then { s.grant i with planCount := (s.grant i).planCount - 1 } else s.grant k := by
      intro k
      rw [grant_recordChange, hn]
      by_cases hk : k = i
      · subst hk
        simp
      · simp [hk, Ne.symm hk]
    rw [List.foldl_cons, ih _ hd.2 (fun m hm => by
      rw [planAt_recordChange, if_neg (fun e => hd.1 (by rw [← e]; exact hm))]
      exact h m (by simp [hm]))]
    rw [hg i, hg j]
    by_cases hj : j = i
    · simp only [hj, if_true, List.length_cons]
      congr 1
      omega
    · simp [hj]

theorem nodup_payload (c : LengthCode) : c.payload.Nodup := by
  unfold LengthCode.payload
  exact List.nodup_range'

/-- The grant's planCount goes down by the number of its PLAN slots, and every other record stays. -/
theorem grant_clearPlan (i j : Nat) : (s.clearPlan i).grant j =
    if j = i then { s.grant i with planCount := (s.grant i).planCount - (s.planSlots i).length } else s.grant j :=
  grant_clears s i _ ((nodup_payload _).filter _) (fun n hn => by
    simp only [List.mem_filter, decide_eq_true_eq] at hn
    exact hn.2) j

theorem kept_station (a : Nat) (x : StationState) (h : Nat) : ∀ n y, ((s.station a).state = x ∧ (s.station a).held = h) →
    ((s.recordChange n y).station a).state = x ∧ ((s.recordChange n y).station a).held = h := by
  intro n y hs
  have down : ∀ (u : State) (o : Option Nat), ((u.station a).state = x ∧ (u.station a).held = h) →
      ((u.planOneFewer o).station a).state = x ∧ ((u.planOneFewer o).station a).held = h := by
    intro u o hu
    cases o with
    | none => exact hu
    | some b =>
      simp only [State.planOneFewer, State.station_updStation]
      split
      · rename_i hab
        subst hab
        exact hu
      · exact hu
  have up : ∀ (u : State) (o : Option Nat), ((u.station a).state = x ∧ (u.station a).held = h) →
      ((u.planOneMore o).station a).state = x ∧ ((u.planOneMore o).station a).held = h := by
    intro u o hu
    cases o with
    | none => exact hu
    | some b =>
      simp only [State.planOneMore, State.station_updStation]
      split
      · rename_i hab
        subst hab
        exact hu
      · exact hu
  simp only [State.recordChange]
  split
  · exact hs
  · have h1 : ((s.openIfNone.updMap (SlotMap.recordIn n (s.planAt n) y)).station a) = s.station a :=
      State.station_congr (by simp) a
    have h2 : ∀ (u : State) (o : Owner), ((u.station a).state = x ∧ (u.station a).held = h) →
        ((u.planCountDown o).station a).state = x ∧ ((u.planCountDown o).station a).held = h := by
      intro u o hu
      cases o with
      | none => exact hu
      | some i => exact down _ _ hu
    have h3 : ∀ (u : State) (o : Owner), ((u.station a).state = x ∧ (u.station a).held = h) →
        ((u.planCountUp o).station a).state = x ∧ ((u.planCountUp o).station a).held = h := by
      intro u o hu
      cases o with
      | none => exact hu
      | some i => exact up _ _ hu
    exact h3 _ _ (h2 _ _ (by rw [h1]; exact hs))

/-! ## Re-deriving and freeing (R24 to R26) -/

theorem rederive_eq (i : Nat) : s.rederive i = { s with grants := (s.rederive i).grants } := by
  unfold State.rederive
  split <;> rfl

theorem grant_rederive (i j : Nat) : (s.rederive i).grant j =
    if j = i ∧ (s.grant i).state ≠ .free ∧ s.derived i ≠ .free then { s.grant i with state := s.derived i }
    else s.grant j := by
  unfold State.rederive
  by_cases h : (s.grant i).state = .free ∨ s.derived i = .free
  · rw [if_pos h, if_neg (fun k => h.elim k.2.1 k.2.2)]
  · rw [if_neg h, State.grant_updGrant]
    rw [not_or] at h
    by_cases hj : j = i
    · subst hj
      simp [h.1, h.2]
    · simp [hj]

theorem grants_departIfDone (a : Nat) : (s.departIfDone a).grants = s.grants := by
  unfold State.departIfDone
  split <;> rfl

theorem grants_holdOneFewer (o : Option Nat) : (s.holdOneFewer o).grants = s.grants := by
  cases o with
  | none => rfl
  | some a =>
    rw [State.holdOneFewer, grants_departIfDone, State.grants_updStation]

theorem freeQueue_departIfDone (a : Nat) : (s.departIfDone a).freeQueue = s.freeQueue := by
  unfold State.departIfDone
  split <;> rfl

theorem freeQueue_holdOneFewer (o : Option Nat) : (s.holdOneFewer o).freeQueue = s.freeQueue := by
  cases o with
  | none => rfl
  | some a =>
    rw [State.holdOneFewer, freeQueue_departIfDone, State.freeQueue_updStation]

/-- A freeing: the next generation, every other field at its FREE value, the index at the queue's tail (R26). -/
theorem grant_freeRecord (i j : Nat) : (s.freeRecord i).grant j =
    if j = i then Grant.freeWith ((s.grant i).generation + 1) else s.grant j := by
  unfold State.freeRecord
  rw [State.grant_congr (s := s.updGrant i (fun g => Grant.freeWith (g.generation + 1))) (by rw [grants_holdOneFewer]),
    State.grant_updGrant]

theorem freeQueue_freeRecord (i : Nat) : (s.freeRecord i).freeQueue = s.freeQueue ++ [i] := by
  unfold State.freeRecord
  rw [freeQueue_holdOneFewer]
  rfl

theorem filter_range_eq (n i : Nat) : (List.range n).filter (fun j => [i].contains j) = if i < n then [i] else [] := by
  induction n with
  | zero => rfl
  | succ n ih =>
    rw [List.range_succ, List.filter_append, ih]
    by_cases h : i < n
    · have hn : n ≠ i := by omega
      simp [h, hn, Nat.lt_succ_of_lt h]
    · by_cases hn : i = n
      · subst hn
        simp
      · have h' : ¬ i < n + 1 := by omega
        simp [h, h', Ne.symm hn]

/-- The completion of a claim that touched one record. -/
theorem complete_one {i : Nat} (h : i < Config.grantCount) : s.complete [i] = (s.rederive i).freeIfDue i := by
  unfold State.complete
  rw [filter_range_eq, if_pos h]
  rfl

/-! ## A retire claim on one grant (R45) -/

theorem map_complete (l : List Nat) : (s.complete l).map = s.map := by
  have h1 : ∀ (l : List Nat) (s : State), (l.foldl (fun s i => s.rederive i) s).map = s.map := by
    intro l
    induction l with
    | nil => intro s; rfl
    | cons i l ih =>
      intro s
      rw [List.foldl_cons, ih, rederive_eq]
  have h3 : ∀ (s : State) (a : Nat), (s.departIfDone a).map = s.map := by
    intro s a
    unfold State.departIfDone
    split <;> rfl
  have h4 : ∀ (s : State) (o : Option Nat), (s.holdOneFewer o).map = s.map := by
    intro s o
    cases o with
    | none => rfl
    | some a =>
      simp only [State.holdOneFewer, h3]
      rfl
  have h2 : ∀ (l : List Nat) (s : State), (l.foldl (fun s i => s.freeIfDue i) s).map = s.map := by
    intro l
    induction l with
    | nil => intro s; rfl
    | cons i l ih =>
      intro s
      rw [List.foldl_cons, ih]
      unfold State.freeIfDue
      split
      · unfold State.freeRecord
        rw [h4]
        rfl
      · rfl
  unfold State.complete
  exact (h2 _ _).trans (h1 _ _)

theorem map_handNotice (a : Nat) (n : Notice) : (s.handNotice a n).map = s.map := by
  unfold State.handNotice
  split
  · split <;> rfl
  · rfl

theorem noticeRevoked_eq (why : Option RevokeReason) (o : Option Nat) (h : Handle) (i : Nat) :
    s.noticeRevoked why o h i = { s with mailboxes := (s.noticeRevoked why o h i).mailboxes
                                         ints := (s.noticeRevoked why o h i).ints } := by
  unfold State.noticeRevoked State.handNotice
  split
  · split
    · rfl
    · split
      · split <;> rfl
      · rfl
  · rfl

theorem complete_nil : s.complete [] = s := by
  unfold State.complete
  have : (List.range Config.grantCount).filter (fun i => ([] : List Nat).contains i) = [] := by simp
  rw [this]
  rfl

/-- A retire claim that names one grant: nothing where it is not retirable; else its PLAN slots are cleared, the claim is
completed and the notice handed. -/
theorem retire_one {i : Nat} (h : i < Config.grantCount) (why : Option RevokeReason) :
    (s.retire [i] why).1 = if (s.grant i).state.retirable then
      State.noticeRevoked why (s.grant i).owner (s.handle i) i ((s.clearPlan i).complete [i]) else s := by
  have hids : (List.range Config.grantCount).filter (fun j => [i].contains j && (s.grant j).state.retirable)
      = if (s.grant i).state.retirable then [i] else [] := by
    rw [List.filter_congr (q := fun j => [i].contains j && (s.grant i).state.retirable) (fun j _ => by
      by_cases hj : j = i
      · rw [hj]
      · simp [hj])]
    cases (s.grant i).state.retirable
    · simp
    · simp only [Bool.and_true, if_true]
      rw [filter_range_eq, if_pos h]
  unfold State.retire
  rw [hids]
  split
  · rfl
  · exact complete_nil s

end Sys2Proof.Machine
end

