-- ==== Sys2Proof/Tests/Slice0.lean ====
section
/-! SUPPORT. The model's own tests: the operand checks refuse ill-formed commands, the spec's example words, what single
commands do on small states, and, for every statement with hypotheses, a state and operands that meet them. -/

namespace Sys2Proof.Tests

open Sys2Proof.Machine

-- One test at a time: run side by side, their kernel evaluations want more memory than the check gives the compile.
set_option Elab.async false

/-! ## Small states -/

/-- The part RUNNING at a place of frame 255, a tick frame, and else as after reset. -/
def at255 (p : FramePlace) : State :=
  { State.reset with timer := { timing := .running p, request := .none, fn := 255, code := .l256 } }

/-- The part RUNNING at a place of frame 7, no tick frame. -/
def at7 (p : FramePlace) : State :=
  { State.reset with timer := { timing := .running p, request := .none, fn := 7, code := .l256 } }

/-- A grant of station 5. -/
def grantOf5 : Grant :=
  { Grant.freeWith 2 with
    state := .live, owner := some 5, requested := 1, planCount := 1, activeCount := 1, leaseReload := 2, leaseRemaining := 1 }

/-- Station 5, MEMBER, with one record of one slot. -/
def member5 : Station := { Station.fresh with state := .member, held := 1, planned := 1 }

/-- Record 3 is this grant, with slot 64 in both maps, and station 5 is this one. -/
def holding (g : Grant) (r : Station) (s : State) : State :=
  { s with
    grants := ⟨[(3, g)]⟩, stations := ⟨[(5, r)]⟩, freeQueue := [9, 10]
    map := { s.map with plan := ⟨[(64, some 3)]⟩, active := ⟨[(64, some 3)]⟩ } }

/-- Station 5 has this mailbox. -/
def mailing (m : Mailbox) (s : State) : State := { s with mailboxes := ⟨[(5, m)]⟩ }

/-- Station 5 is this one. -/
def station5 (r : Station) (s : State) : State := { s with stations := ⟨[(5, r)]⟩ }

/-- The engine is IDLE and the port has this request in progress. -/
def working (e : Quad) (s : State) : State := { s with port := { s.port with inProgress := some e } }

/-- The engine is BUSY with this placement for the request in progress. -/
def busy (c : Context) (e : Quad) (s : State) : State :=
  { s with port := { s.port with inProgress := some e }, engine := { s.engine with context := some c } }

/-- The head of a request for this station, with tag 9. -/
def headOf (a : BitVec 6) : RequestHead := { resume := false, station := a, tag := 9 }

/-- The fields of a CREATE of two slots. -/
def twoSlots : CreateFields := { count := 2, pattern := 0, cls := 1, preemptible := true, stream := 4, lease := 6 }

/-- A CREATE for station 5. -/
def create5 : Quad := createEntry (headOf 5) twoSlots

/-- A placement of record 3 for station 5. -/
def placement (o : Found) : Context := { kind := .create 3 6, station := 5, newCount := 2, outcome := o }

/-- A pending epoch that takes slot 64 from record 3 in frame 255. -/
def epoch255 : Epoch :=
  { number := 1, sealFrame := 255, effective := 255, changes := ⟨[(64, some { fromOwner := some 3, toOwner := none })]⟩ }

/-- The state that a command answers. -/
def after (c : Instr) (s : State) : State :=
  match exec c s with
  | .next t => t
  | .fault _ => s
  | .refused _ => s

/-- Only station 5 has a notice. -/
theorem mail5_alone {m : Mailbox} {s : State} {b : Nat} (h : b ≠ 5) : ((mailing m s).mailbox b).queue = [] := by
  have h' : (b == 5) = false := by simpa using h
  simp [mailing, State.mailbox, Table.get, List.lookup, h', Mailbox.fresh]

/-! ## The operand checks refuse -/

theorem test_wf_departure : (Instr.departureComplete 0).wellFormed = false ∧ (Instr.departureComplete 48).wellFormed = false
    ∧ (Instr.departureComplete 47).wellFormed = true := by decide
theorem test_wf_countdown : (Instr.retryCountdownExpired 0).wellFormed = false := by decide
theorem test_wf_holdoff : (Instr.strayHoldoffExpired 48).wellFormed = false := by decide
theorem test_wf_taint : (Instr.taintExpired 63).wellFormed = false ∧ (Instr.taintExpired 64).wellFormed = true := by decide
theorem test_wf_lease : (Instr.leaseExpired 240).wellFormed = false ∧ (Instr.leaseExpired 239).wellFormed = true := by
  decide
theorem test_wf_unknownOp : (Instr.unknownOp (headOf 0) 1).wellFormed = false
    ∧ (Instr.unknownOp (headOf 0) 12).wellFormed = false ∧ (Instr.unknownOp (headOf 0) 13).wellFormed = true := by decide
theorem test_wf_registerWrite : (Instr.registerWrite 0x01 0).wellFormed = false
    ∧ (Instr.registerWrite 0x09 0).wellFormed = true := by decide

/-! ## The spec's words -/

/-- The worked example of 12_word_formats.md: GRANTED for handle 5:077 to station 12. -/
theorem test_granted_words :
    noticeWords 12 3 (.granted { generation := 5, index := 77 } 4 9 313) = [0x9864454D, 0x009C8009] := by decide
theorem test_filler : fillerWord = 0x80000000 := by decide
theorem test_identity : State.reset.registerRead 0x00 = 0x3A747201 := by decide
/-- An ASK written out by its bits: kind 2, ack 1, sequence 9, count 3, EVEN, class 1, preemptible, lease code 2, stream 4. -/
theorem test_ask_word : uplinkWord 1 (.ask ⟨9, 2, 2, 1, true, 2, 4⟩) = 0xA190A644 := by decide +kernel
/-- A CREATE written out by its bits: tag 9, station 5, op 1; stream 4, preemptible, class 1, ANY, count 2; lease 6. -/
theorem test_create_entry : create5 = ⟨0x00090501, 0x04011002, 0x00000006, 0⟩ := by decide

/-! ## Single commands -/

theorem test_release_straps : (after (.resetRelease 3) (after .deviceReset State.reset)).timer.code = .l1024 := by decide
theorem test_highwayStart :
    (after .highwayStart (after .runRequest State.reset)).timer.timing = .running (.slot 0) := by decide
theorem test_stop_then_frameEnd :
    (after .frameEnd (after .stopRequest (at7 (.endDue .none)))).timer = ⟨.stopped, .none, 8, .l256⟩ := by decide +kernel
theorem test_slot_47 : (after (.slotEvent 0 0) (at7 (.slot 47))).timer.timing = .running .arbitrationDue := by decide +kernel
theorem test_slot_255 : (after (.slotEvent 0 0) (at7 (.slot 255))).timer.timing = .running (.endDue .none) := by decide +kernel
theorem test_join : ((after (.join 0) (at7 (.slot 5))).station 5).state = .joining
    ∧ ((after (.join 0) (at7 (.slot 5))).mailbox 5).queue = [.joined] := by decide +kernel
theorem test_clash : ((after (.slotEvent 2 0) (at7 (.slot 5))).station 5).clashes = 1 := by decide +kernel
theorem test_intrusion : (after (.slotEvent 1 0) (at7 (.slot 64))).taintAt 64 = 64
    ∧ (after (.slotEvent 1 0) (at7 (.slot 64))).intrusions = 1 := by decide +kernel
theorem test_expired : ((after .leaseTick (holding grantOf5 member5 (at255 (.endDue .none)))).grant 3).state = .draining
    ∧ ((after .leaseTick (holding grantOf5 member5 (at255 (.endDue .none)))).mailbox 5).queue
      = [.revoked ⟨2, 3⟩ .expired 272] := by decide +kernel
theorem test_create_waits : (after (.create (headOf 5) twoSlots) State.reset).port.inProgress = some create5 := by
  decide +kernel
theorem test_commit : ((after .commitPoint (after (.create (headOf 5) twoSlots)
    (station5 { member5 with held := 0, planned := 0 } State.reset))).planSlots 0) = [64, 65] := by decide +kernel
theorem test_census_in_use : ((after (.census (headOf 0)) (holding grantOf5 member5 State.reset)).registerRead 0x26)
    = 0x0009010C := by decide +kernel
theorem test_unknownOp : (after (.unknownOp (headOf 0) 13) State.reset).registerRead 0x26 = 0x0009001D := by
  decide +kernel
theorem test_intFlags : (after (.intFlagsWrite 0x40) (after .intFlagsRead (after (.faultLimitWrite 0) State.reset))).ints.flags
    = 0 ∧ (after (.intFlagsWrite 0x40) (after (.faultLimitWrite 0) State.reset)).ints.flags = 0x40 := by decide +kernel
theorem test_queue_order : (match step { State.reset with pending := [.runRequest, .highwayStart] } with
    | .next t => (t.timer.request, t.pending)
    | .fault _ => (.none, [])
    | .refused _ => (.none, [])) = (.start, [.highwayStart]) := by decide +kernel

/-! ## The hypotheses of the statements can be met, clause by clause -/

theorem ready_reset : State.reset.ready := ⟨rfl, rfl⟩
theorem ready255 (p : FramePlace) : (at255 p).ready := ⟨rfl, rfl⟩
theorem ready7 (p : FramePlace) : (at7 p).ready := ⟨rfl, rfl⟩
theorem free_reset : State.reset.portFree := ⟨rfl, rfl, by decide⟩
/-- The state that holds grant 3 with the port free. -/
def granted (g : Grant) : State := holding g member5 State.reset
theorem ready_granted (g : Grant) : (granted g).ready ∧ (granted g).portFree := ⟨⟨rfl, rfl⟩, rfl, rfl, (by decide : 0 < 32)⟩

theorem test_meets_StepRunsTheFrontCommand : State.reset.pending = [] := rfl
/-- A suspended station's ask waits alone, which a take refuses at once; the queue puts the take next. -/
def takeNext (s : State) : State :=
  { s with askQueue := [⟨5, ⟨1, 0, 0, 0, false, 0, 0⟩⟩], pending := [.placementTake] }
theorem test_meets_DueTakesComeFirst :
    (let s := working create5 State.reset
     s.inReset = false ∧ Instr.frameEnd ≠ .deviceReset ∧ Instr.frameEnd ≠ .placementTake ∧ s.takeDue = true
       ∧ State.reset.takeDue = false ∧ s.pending.head? ≠ some .placementTake)
    ∧ (∀ f, Instr.frameEnd ≠ .resetRelease f)
    ∧ (let s := takeNext State.reset
     s.inReset = false ∧ s.pending.head? = some .placementTake ∧ s.takeDue = true
       ∧ s.broughtWork (after .runRequest
           { s with engine := { s.engine with context := some (placement .noRoom) } }) = false
       ∧ s.broughtWork (after (.create (headOf 5) twoSlots)
           { s with engine := { s.engine with context := some (placement .noRoom) } }) = true) :=
  ⟨⟨rfl, by decide, by decide, rfl, rfl, nofun⟩, nofun, by decide +kernel⟩
/-- R16 beside R59 (log 5): with an ask waiting, a FRAME_LENGTH write that the queue puts right before the take is accepted
and the take then searches the new range; else the take comes first, and its PLACING record makes the part refuse. -/
theorem test_write_before_take :
    (let s := takeNext (station5 member5 State.reset)
     (after .placementTake (after (.frameLengthWrite 1) s)).timer.code = .l512
       ∧ (after .placementTake (after (.frameLengthWrite 1) s)).ints.flags = 0
       ∧ (after (.frameLengthWrite 1) { s with pending := [] }).timer.code = .l256
       ∧ (after (.frameLengthWrite 1) { s with pending := [] }).ints.isSet .configRefused = true) := by decide +kernel
theorem test_meets_TheDeviceReset : (after .deviceReset State.reset).inReset = true ∧ State.reset.inReset = false
    ∧ Instr.runRequest ≠ .deviceReset ∧ (∀ f, Instr.runRequest ≠ .resetRelease f) := ⟨rfl, rfl, by decide, nofun⟩
theorem test_meets_RunAndStopRequests :
    (State.reset.ready ∧ State.reset.timer.timing = .stopped ∧ State.reset.timer.request = .none)
    ∧ (after .runRequest State.reset).ready ∧ (after .runRequest State.reset).timer.request = .start
    ∧ ((at7 (.slot 0)).timer.timing = .running (.slot 0) ∧ (at7 (.slot 0)).timer.request = .none)
    ∧ (after .stopRequest (at7 (.slot 0))).ready ∧ (after .stopRequest (at7 (.slot 0))).timer.request = .stop :=
  ⟨⟨ready_reset, rfl, rfl⟩, ⟨rfl, rfl⟩, rfl, ⟨rfl, rfl⟩, ⟨rfl, rfl⟩, rfl⟩
/-- An OPEN epoch whose S is FN, and none SEALED. -/
def sealing (s : State) : State := { s with map := { s.map with openEpoch := some epoch255 } }
theorem test_meets_FramesStart_plain : (at7 .startDue).ready
    ∧ (∀ e, (sealing (at7 .startDue)).map.sealedEpoch = some e → e.effective ≠ 7)
    ∧ (∀ e, (sealing (at7 .startDue)).map.openEpoch = some e → e.sealFrame ≠ (sealing (at7 .startDue)).timer.fn)
    ∧ (at7 .startDue).timer.timing = .running .startDue
    ∧ (after .runRequest State.reset).timer.timing = .stopped ∧ (after .runRequest State.reset).timer.request = .start
    ∧ (at7 (.slot 3)).timer.timing ≠ .running .startDue ∧ (∀ k, ¬ (at7 (.slot 3)).endIsDue k)
    ∧ State.reset.timer.request ≠ .start ∧ (at7 (.endDue .none)).endIsDue .none :=
  ⟨ready7 _, nofun, fun e h => by cases h; decide, rfl, rfl, rfl, nofun, nofun, nofun, rfl⟩
theorem test_meets_FramesStart_seal : (sealing (at255 .startDue)).ready ∧ (sealing (at255 .startDue)).map.sealedEpoch = none
    ∧ (sealing (at255 .startDue)).map.openEpoch = some epoch255 ∧ epoch255.sealFrame = (sealing (at255 .startDue)).timer.fn
    ∧ (sealing (at255 .startDue)).timer.timing = .running .startDue := ⟨⟨rfl, rfl⟩, rfl, rfl, rfl, rfl⟩
theorem test_meets_FramesStart_both :
    (sealing { after .runRequest State.reset with timer := ⟨.stopped, .start, 255, .l256⟩ }).ready
    ∧ (sealing { after .runRequest State.reset with timer := ⟨.stopped, .start, 255, .l256⟩ }).map.openEpoch = some epoch255 :=
  ⟨⟨rfl, rfl⟩, rfl⟩
/-- A SEALED epoch whose E is FN. -/
def swapping : State :=
  { holding grantOf5 member5 (at255 .startDue) with
    map := { (holding grantOf5 member5 (at255 .startDue)).map with sealedEpoch := some epoch255 } }
theorem test_meets_FrameStartSwaps : swapping.ready ∧ swapping.timer.timing = .running .startDue
    ∧ swapping.map.sealedEpoch = some epoch255 ∧ epoch255.effective = swapping.timer.fn ∧ epoch255.changes.wf none = true
    ∧ (64 ∈ swapping.payload ∧ swapping.activeAt 64 = some 3)
    ∧ epoch255.names 4 = false ∧ epoch255.names 3 = true ∧ (swapping.grant 3).state ≠ .free
    ∧ (swapping.grant 3).state ≠ .placing ∧ (swapping.grant 3).activeCount = (swapping.activeSlots 3).length :=
  ⟨⟨rfl, rfl⟩, rfl, rfl, rfl, rfl, by decide, by decide, by decide, by decide, by decide, by decide +kernel⟩
theorem test_meets_FrameStartSwaps_list : ∀ n c, epoch255.changes.get none n = some c →
    n ∈ swapping.payload ∧ c.fromOwner = swapping.activeAt n := by
  intro n c h
  unfold epoch255 Table.get List.lookup at h
  by_cases e : n = 64
  · subst e
    cases h
    exact ⟨by decide, rfl⟩
  · have e' : (n == 64) = false := by simpa using e
    simp [e'] at h
theorem test_meets_SlotsFollowInOrder : (0 < LengthCode.l256.slots ∧ 0 ≠ 47 ∧ 0 + 1 ≠ LengthCode.l256.slots)
    ∧ (254 < LengthCode.l256.slots ∧ 254 ≠ 47 ∧ 254 + 1 ≠ LengthCode.l256.slots)
    ∧ (State.reset.ready ∧ State.reset.timer.timing = .stopped)
    ∧ ((at7 .startDue).ready ∧ (at7 .startDue).timer.timing = .running .startDue)
    ∧ (at7 .arbitrationDue).timer.timing = .running .arbitrationDue ∧ (at7 (.endDue .none)).endIsDue .none :=
  ⟨by decide, by decide, ⟨ready_reset, rfl⟩, ⟨ready7 _, rfl⟩, rfl, rfl⟩
theorem test_meets_OutputPins : State.reset.timer.timing = .stopped ∧ (at7 (.slot 0)).inSlot 0 ∧ (at7 (.slot 48)).inSlot 48
    ∧ (at7 (.slot 63)).inSlot 63 ∧ (at7 (.slot 47)).inSlot 47 ∧ (at7 (.slot 255)).inSlot 255
    ∧ (at7 (.slot 255)).activeAt 255 = none ∧ (holding grantOf5 member5 (at7 (.slot 64))).activeAt 64 = some 3
    ∧ State.reset.inReset = false ∧ (after .deviceReset State.reset).inReset = true :=
  ⟨rfl, rfl, rfl, rfl, rfl, rfl, rfl, rfl, rfl, rfl⟩
theorem test_meets_FrameEndCountsDown : (at7 (.endDue .none)).ready ∧ (at7 (.endDue .none)).endIsDue .none
    ∧ ¬ (at7 (.endDue .none)).tickIsDue .none ∧ (at7 (.endDue .none)).map.taint.wf 0 = true
    ∧ (at7 (.endDue .none)).mailboxes.wf Mailbox.fresh = true
    ∧ (at7 (.endDue ⟨false, true, true⟩)).endIsDue ⟨false, true, true⟩
    ∧ (at255 (.endDue ⟨true, false, false⟩)).endIsDue ⟨true, false, false⟩
    ∧ ¬ (at255 (.endDue ⟨true, false, false⟩)).tickIsDue ⟨true, false, false⟩
    ∧ (at255 (.endDue .none)).tickIsDue .none
    ∧ (∀ p, ¬ (at7 (.slot 0)).endIsDue p) ∧ ∀ p, ¬ (at7 (.slot 0)).tickIsDue p :=
  ⟨ready7 _, rfl, (absurd ·.2.2 (by decide)), rfl, rfl, rfl, rfl, nofun, ⟨rfl, rfl, by decide⟩, nofun, nofun⟩
/-- A mailbox whose head counts down from this. -/
def counting (k : Nat) : Mailbox :=
  { queue := [.joined], head := { sequence := some 1, sends := 1, countdown := k }, nextSeq := 2, holdoff := 1 }
theorem test_meets_CountsExpire :
    (let s := station5 member5 (mailing (counting 1) (at7 (.endDue .none)))
     s.ready ∧ s.endIsDue .none ∧ (s.mailbox 5).head.countdown = 1 ∧ (s.station 5).state = .member
       ∧ (s.mailbox 5).holdoff = 1)
    ∧ (let s := station5 { member5 with state := .quiet } (mailing (counting 1) (at7 (.endDue .none)))
     (s.mailbox 5).head.countdown = 1 ∧ (s.station 5).state ≠ .joining ∧ (s.station 5).state ≠ .member)
    ∧ ((mailing (counting 0) (at7 (.endDue .none))).mailbox 5).head.countdown ≠ 1
    ∧ ((mailing (counting 2) (at7 (.endDue .none))).mailbox 5).head.countdown ≠ 1
    ∧ (let s := { at7 (.endDue .none) with map := { State.reset.map with taint := ⟨[(64, 1)]⟩ } }
     s.ready ∧ s.endIsDue .none ∧ s.taintAt 64 = 1 ∧ s.taintAt 65 ≠ 1 ∧ s.map.taint.wf 0 = true)
    ∧ (at7 (.endDue ⟨false, true, true⟩)).endIsDue ⟨false, true, true⟩ :=
  ⟨⟨⟨rfl, rfl⟩, rfl, rfl, rfl, rfl⟩, ⟨rfl, by decide, by decide⟩, by decide, by decide,
    ⟨⟨rfl, rfl⟩, rfl, rfl, by decide, rfl⟩, rfl⟩
theorem canRetire3 {g : Grant} (h : g.state.retirable = true) (k : g.planCount = 1) (s : State) (r : Station)
    (hs : s.timer.code = .l256) : (holding g r s).canRetire 3 := by
  refine ⟨by decide, h, ?_⟩
  have e : (holding g r s).planSlots 3 = [64] := by
    unfold State.planSlots State.payload
    rw [show (holding g r s).timer.code = .l256 from hs]
    rfl
  rw [e]
  exact k
/-- Every record but 3 is FREE. -/
theorem alone3 (g : Grant) (r : Station) (s : State) : (holding g r s).countedAlone 3 := by
  intro j _ h
  have h' : (j == 3) = false := by simpa using h
  simp [holding, State.grant, Table.get, List.lookup, h', Grant.freeWith]
/-- Frame 255 has ended, and nothing of its end is taken. -/
def ending (g : Grant) : State := holding g member5 (at255 (.endDue .none))
theorem tick3 (g : Grant) : (ending g).ready ∧ (ending g).tickIsDue .none :=
  ⟨⟨rfl, rfl⟩, rfl, rfl, (by decide : (255 : BitVec 16).toNat % 256 = 255)⟩
theorem test_meets_LeaseTickCounts :
    (let s := ending { grantOf5 with leaseReload := 20, leaseRemaining := 9 }
     s.cfg.idleLimit = 0 ∧ (s.grant 3).state = .live ∧ 2 ≤ (s.grant 3).leaseRemaining.toNat ∧ (s.grant 3).owner = some 5
       ∧ (s.grant 3).leaseWarned = false ∧ (s.grant 3).leaseRemaining - 1 = s.cfg.leaseWarn.setWidth 16
       ∧ (s.station 5).state.present = true ∧ (s.mailbox 5).queue.length + 1 ≤ 8)
    ∧ (let s := ending { grantOf5 with leaseReload := 0, leaseRemaining := 0, state := .shifting }
     (s.grant 3).state = .shifting ∧ (s.grant 3).leaseReload = 0)
    ∧ (let s := ending { grantOf5 with state := .pending }
     (s.grant 3).state ≠ .live ∧ (s.grant 3).state ≠ .shifting) := by decide
/-- Two counted records of station 5: 3 comes to its warning and 7 expires. -/
def twoTicking : State :=
  { ending grantOf5 with
    grants := ⟨[(3, { grantOf5 with leaseReload := 20, leaseRemaining := 9 }), (7, grantOf5)]⟩ }
theorem test_meets_LeaseTickCounts_several : twoTicking.ready ∧ twoTicking.tickIsDue .none ∧ twoTicking.map.follows
    ∧ (twoTicking.station 5).state.present = true
    ∧ (after .leaseTick twoTicking |>.mailbox 5).queue = [.leaseLow ⟨2, 3⟩ 8, .revoked ⟨2, 7⟩ .expired 256]
    ∧ ({ grantOf5 with usedThisTick := true, idleTicks := 9 } : Grant).idleAfter < (2 : BitVec 8) :=
  ⟨(tick3 grantOf5).1, (tick3 grantOf5).2, ⟨fun _ => ⟨nofun, nofun, fun _ => rfl⟩, nofun, nofun⟩, rfl, by decide +kernel,
    by decide⟩
theorem test_meets_LeaseExpires :
    let s := ending grantOf5
    s.canRetire 3 ∧ (s.grant 3).state = .live ∧ (s.grant 3).leaseReload ≠ 0 ∧ (s.grant 3).leaseRemaining = 1
      ∧ (s.grant 3).activeCount ≠ 0 ∧ (s.grant 3).owner = some 5 ∧ (s.station 5).state.present = true
      ∧ (s.mailbox 5).queue.length + 1 ≤ 8 ∧ ((ending { grantOf5 with leaseRemaining := 2 }).grant 3).leaseRemaining ≠ 1
      ∧ ((ending { grantOf5 with leaseRemaining := 0 }).grant 3).leaseRemaining ≠ 1 :=
  ⟨canRetire3 rfl rfl _ _ rfl, rfl, by decide, rfl, by decide, rfl, rfl, by decide, by decide, by decide⟩
/-- LEASE_EXPIRED is the whole lease tick (R95, log 8): FRAME_END then takes only the rest. -/
theorem test_expiry_is_the_tick : after (.leaseExpired 3) (ending grantOf5) = after .leaseTick (ending grantOf5)
    ∧ after .frameEnd (after (.leaseExpired 3) (ending grantOf5)) = after .frameEnd (ending grantOf5) := by decide +kernel
theorem test_meets_IdleGrantsAreReclaimed :
    let s := ending { grantOf5 with leaseRemaining := 2, idleTicks := 1 }
    let t := { s with cfg := { s.cfg with idleLimit := 2 } }
    let u := { s with cfg := { s.cfg with idleLimit := 3 } }
    (t.ready ∧ t.tickIsDue .none) ∧ t.canRetire 3 ∧ (t.grant 3).state = .live ∧ 2 ≤ (t.grant 3).leaseRemaining.toNat
      ∧ (t.grant 3).activeCount ≠ 0 ∧ (t.grant 3).usedThisTick = false ∧ t.cfg.idleLimit ≠ 0
      ∧ t.cfg.idleLimit ≤ (t.grant 3).idleAfter ∧ t.countedAlone 3 ∧ (t.grant 3).owner = some 5
      ∧ (u.grant 3).idleAfter < u.cfg.idleLimit :=
  ⟨⟨⟨rfl, rfl⟩, rfl, rfl, by decide⟩, canRetire3 (s := at255 (.endDue .none)) rfl rfl member5 rfl, rfl, by decide,
    by decide, rfl, by decide, by decide, alone3 (s := at255 (.endDue .none)) _ member5, rfl, by decide⟩
theorem test_meets_SlotsArePoliced :
    (let s := holding grantOf5 member5 (at7 (.slot 64))
     s.ready ∧ s.inSlot 64 ∧ s.activeAt 64 = some 3 ∧ satInc (s.grant 3).faultCount < s.cfg.faultLimit)
    ∧ ((holding { grantOf5 with state := .draining } member5 (at7 (.slot 64))).grant 3).state ≠ .live
    ∧ ((at7 (.slot 255)).inSlot 255 ∧ (at7 (.slot 255)).activeAt 255 = none)
    ∧ ((at7 (.slot 0)).inSlot 0 ∧ (at7 (.slot 48)).inSlot 48 ∧ (at7 (.slot 63)).inSlot 63) :=
  ⟨⟨⟨rfl, rfl⟩, rfl, rfl, by decide⟩, by decide, ⟨rfl, rfl⟩, rfl, rfl, rfl⟩
theorem test_meets_FaultedGrantsAreRetired :
    let s := holding { grantOf5 with faultCount := 7 } member5 (at7 (.slot 64))
    s.ready ∧ s.inSlot 64 ∧ s.activeAt 64 = some 3 ∧ (s.grant 3).state = .live
      ∧ s.cfg.faultLimit ≤ satInc (s.grant 3).faultCount ∧ s.canRetire 3 ∧ (s.grant 3).activeCount ≠ 0
      ∧ (s.grant 3).owner = some 5 ∧ (s.station 5).state = .member ∧ (s.mailbox 5).queue.length < 8 :=
  ⟨⟨rfl, rfl⟩, rfl, rfl, rfl, by decide, canRetire3 rfl rfl _ _ rfl, by decide, rfl, rfl, by decide⟩
/-- Slot 5 in progress, with station 5 in this state and this many slots missed. -/
def inSlot5 (st : StationState) (missed : BitVec 8) : State :=
  holding grantOf5 { member5 with state := st, missed } (at7 (.slot 5))
theorem up5 (st : StationState) (m : BitVec 8) : (inSlot5 st m).ready ∧ (inSlot5 st m).inUplinkSlot 5
    ∧ ((inSlot5 st m).station 5).state = st := ⟨⟨rfl, rfl⟩, ⟨rfl, by decide, by decide⟩, rfl⟩
theorem test_meets_SilentUplinkSlots :
    (satInc ((inSlot5 .member 2).station 5).missed < (inSlot5 .member 2).cfg.quietAfter
      ∧ (inSlot5 .member 3).cfg.quietAfter ≤ satInc ((inSlot5 .member 3).station 5).missed
      ∧ satInc ((inSlot5 .member 30).station 5).missed < (inSlot5 .member 30).cfg.lostAfter)
    ∧ (inSlot5 .joining 31).cfg.lostAfter ≤ satInc ((inSlot5 .joining 31).station 5).missed
    ∧ (inSlot5 .member 255).cfg.lostAfter ≤ satInc ((inSlot5 .member 255).station 5).missed
    ∧ (inSlot5 .quiet 31).cfg.lostAfter ≤ satInc ((inSlot5 .quiet 31).station 5).missed
    ∧ ((inSlot5 .absent 0).station 5).state = .absent ∧ ((inSlot5 .leaving 0).station 5).state = .leaving := by decide
theorem test_meets_ClashesAndBadWords : oddOnes (0 : Word) = false ∧ (oddOnes (0xE0000000 : Word) = true
    ∧ uplinkBody 0xE0000000 = none) ∧ ((inSlot5 .quiet 0).station 5).state = .quiet
    ∧ ((inSlot5 .member 0).station 5).state ≠ .quiet := by decide
theorem test_meets_ReceivedWordsAreTheirRows : (inSlot5 .member 0).inUplinkSlot 5 ∧ oddOnes (0x80000000 : Word) = true
    ∧ uplinkBody 0x80000000 = some .keep ∧ (at7 (.slot 48)).ready ∧ ∀ a, ¬ (at7 (.slot 48)).inUplinkSlot a := by
  refine ⟨(up5 _ _).2.1, by decide, by decide, ready7 _, ?_⟩
  rintro a ⟨h, h1, h2⟩
  have : a = 48 := by
    unfold State.inSlot at7 at h
    simpa using h.symm
  omega
theorem test_meets_AcksRemoveTheHead :
    (let s := mailing (counting 0) (inSlot5 .joining 0)
     s.ready ∧ s.inUplinkSlot 5 ∧ (s.station 5).state = .joining ∧ (s.mailbox 5).queue = [.joined]
       ∧ 1 ≤ (s.mailbox 5).head.sends ∧ (s.mailbox 5).head.sequence = some 1)
    ∧ (mailing (counting 0) (inSlot5 .member 0)).ready
    ∧ ((mailing (counting 0) (inSlot5 .member 0)).station 5).state = .member
    ∧ ((inSlot5 .member 0).mailbox 5).queue = []
    ∧ ((mailing (counting 0) (inSlot5 .member 0)).mailbox 5).head.sequence ≠ some 2 :=
  ⟨⟨⟨rfl, rfl⟩, ⟨rfl, by decide, by decide⟩, rfl, rfl, by decide, rfl⟩, ⟨rfl, rfl⟩, rfl, rfl, by decide⟩
theorem test_meets_QuietReturnsAndLeavingIsIgnored : ((inSlot5 .quiet 0).ready ∧ (inSlot5 .quiet 0).inUplinkSlot 5
    ∧ ((inSlot5 .quiet 0).station 5).state = .quiet) ∧ ((inSlot5 .leaving 0).station 5).state = .leaving :=
  ⟨up5 _ _, rfl⟩
/-- Station 5, MEMBER in its slot, with this ask record; a waiting ask stands in the queue while the engine is BUSY. -/
def asking (k : AskRecord) (q : List Ask) : State :=
  { busy (placement .noRoom) create5 (inSlot5 .member 0) with asks := ⟨[(5, k)]⟩, askQueue := q }
theorem test_meets_AsksAreTakenByTheirRow_idle :
    (inSlot5 .member 0).ready ∧ (inSlot5 .member 0).engine.context = none ∧ ((inSlot5 .member 0).ask 5).status = .none
      ∧ (asking ⟨.none, none⟩ []).engine.context.isSome = true := ⟨⟨rfl, rfl⟩, rfl, rfl, rfl⟩
/-- An ask that an IDLE engine takes is IN_FLIGHT for the very next event, with PLACEMENT_TAKE next in the queue or not. -/
theorem test_ask_is_taken_at_once :
    ((after (.ask 0 ⟨4, 1, 0, 1, false, 0, 0⟩) (inSlot5 .member 0)).ask 5).status = .inFlight 4
      ∧ ((after (.ask 0 ⟨4, 1, 0, 1, false, 0, 0⟩) { inSlot5 .member 0 with pending := [.placementTake] }).ask 5).status
        = .inFlight 4
      ∧ (after (.lookupStation (headOf 5)) { after (.ask 0 ⟨4, 1, 0, 1, false, 0, 0⟩) (inSlot5 .member 0) with
          pending := [.placementTake] }).registerRead 0x29 = 0x42 := by decide +kernel
theorem test_meets_AsksAreTakenByTheirRow :
    ((asking ⟨.none, some 3⟩ []).ready ∧ (asking ⟨.none, some 3⟩ []).inUplinkSlot 5
      ∧ ((asking ⟨.none, some 3⟩ []).station 5).state = .member ∧ ((asking ⟨.none, some 3⟩ []).ask 5).lastAnswered = some 3)
    ∧ (((asking ⟨.waiting 4, some 3⟩ []).ask 5).status = .waiting 4
      ∧ ((asking ⟨.waiting 4, some 3⟩ []).ask 5).lastAnswered ≠ some 4)
    ∧ ((asking ⟨.inFlight 4, none⟩ []).ask 5).status = .inFlight 4 ∧ (4 : BitVec 4) ≠ 5
    ∧ ((asking ⟨.none, none⟩ []).ask 5).status = .none :=
  ⟨⟨⟨rfl, rfl⟩, ⟨rfl, by decide, by decide⟩, rfl, rfl⟩, ⟨rfl, by decide⟩, rfl, by decide, rfl⟩
theorem test_meets_DropAndRenewWords :
    ((inSlot5 .member 0).handlePasses ⟨1, 3⟩ = false ∧ (inSlot5 .member 0).handlePasses ⟨0, 240⟩ = false)
    ∧ ((inSlot5 .member 0).handlePasses ⟨2, 3⟩ = true ∧ ((inSlot5 .member 0).grant 3).owner = some 5
      ∧ ((inSlot5 .member 0).grant 3).state ≠ .draining)
    ∧ (let s := holding { grantOf5 with state := .draining } member5 (at7 (.slot 5))
       s.handlePasses ⟨2, 3⟩ = true ∧ (s.grant 3).owner = some 5 ∧ (s.grant 3).state = .draining)
    ∧ ((15 : BitVec 4) = BitVec.ofNat 4 15
      ∧ (960 : BitVec 16).setWidth 32 = (inSlot5 .member 0).registerRead (BitVec.ofNat 6 (0x10 + 15))) := by
  refine ⟨by decide, by decide, by decide, by decide⟩
theorem test_meets_DropAndRenewWords_retire : (inSlot5 .member 0).ready ∧ (inSlot5 .member 0).inUplinkSlot 5
    ∧ ((inSlot5 .member 0).station 5).state = .member ∧ (inSlot5 .member 0).handlePasses ⟨2, 3⟩ = true
    ∧ ((inSlot5 .member 0).grant 3).owner = some 5 ∧ (inSlot5 .member 0).canRetire 3 :=
  ⟨(up5 _ _).1, (up5 _ _).2.1, rfl, by decide, rfl, canRetire3 rfl rfl _ _ rfl⟩
theorem test_meets_LeaveAndRejoin :
    (asking ⟨.waiting 4, none⟩ []).ready ∧ (asking ⟨.waiting 4, none⟩ []).inUplinkSlot 5
    ∧ ((asking ⟨.waiting 4, none⟩ []).station 5).state = .member ∧ ((asking ⟨.waiting 4, none⟩ []).ask 5).status = .waiting 4
    ∧ ((asking ⟨.inFlight 4, none⟩ []).ask 5).status = .inFlight 4
    ∧ (64 ∈ (asking ⟨.none, none⟩ []).payload ∧ (asking ⟨.none, none⟩ []).planAt 64 = some 3
      ∧ ((asking ⟨.none, none⟩ []).grant 3).state.retirable = true) :=
  ⟨⟨rfl, rfl⟩, ⟨rfl, by decide, by decide⟩, rfl, rfl, rfl, by decide, rfl, rfl⟩
theorem test_meets_AbsentStationsJoinOrStray : ((at7 (.slot 47)).ready ∧ (at7 (.slot 47)).inUplinkSlot 47
    ∧ ((at7 (.slot 47)).station 47).state = .absent ∧ ((at7 (.slot 47)).station 47).barred = false)
    ∧ UplinkBody.keep ≠ .join ∧ ((station5 { Station.fresh with barred := true } (at7 (.slot 5))).station 5).barred = true :=
  ⟨⟨ready7 _, ⟨rfl, by decide, by decide⟩, rfl, rfl⟩, by decide, rfl⟩
theorem test_meets_DeparturesComplete :
    (let s := station5 { member5 with state := .leaving, held := 0 } State.reset
     s.ready ∧ (s.station (5 : BitVec 6).toNat).state = .leaving ∧ (s.station 5).held = 0)
    ∧ ((station5 { member5 with state := .leaving } State.reset).station 5).held ≠ 0
    ∧ ((station5 member5 State.reset).station 5).state ≠ .leaving :=
  ⟨⟨⟨rfl, rfl⟩, rfl, rfl⟩, by decide, by decide⟩
/-- The arbitration is due, and station 5 alone has a head. -/
def arbitrating (st : StationState) (m : Mailbox) : State :=
  mailing m (station5 { member5 with state := st } (at7 .arbitrationDue))
theorem test_meets_ArbitrationSendsTheHead :
    (let s := arbitrating .member { counting 0 with head := .unsent }
     s.ready ∧ s.timer.timing = .running .arbitrationDue ∧ s.arbiterPointer = 47 ∧ (s.mailbox 5).queue = [.joined]
       ∧ (∀ b, b ≠ 5 → (s.mailbox b).queue = []) ∧ (s.station 5).state = .member
       ∧ (s.mailbox 5).head.sends = 0 ∧ (s.mailbox 5).head.sequence = none)
    ∧ (let s := arbitrating .joining (counting 0)
     (s.station 5).state = .joining ∧ 1 ≤ (s.mailbox 5).head.sends
       ∧ (s.mailbox 5).head.sends < s.cfg.sendLimit.toNat ∧ (s.mailbox 5).head.countdown = 0
       ∧ (s.mailbox 5).head.sequence = some 1)
    ∧ (let s := arbitrating .absent { counting 0 with queue := [.left] }
     (s.station 5).state = .absent ∧ (s.mailbox 5).queue = [.left]) :=
  ⟨⟨⟨rfl, rfl⟩, rfl, rfl, rfl, fun _ h => mail5_alone h, rfl, rfl, rfl⟩, ⟨rfl, by decide, by decide, rfl, rfl⟩, rfl, rfl⟩
theorem test_meets_ArbitrationSendsTheHead_limit :
    let s := arbitrating .member { counting 0 with head := { sequence := some 1, sends := 8, countdown := 0 } }
    s.ready ∧ s.timer.timing = .running .arbitrationDue ∧ 1 ≤ s.arbiterPointer ∧ s.arbiterPointer ≤ 47
      ∧ (s.mailbox 5).queue ≠ [] ∧ (∀ b, b ≠ 5 → (s.mailbox b).queue = []) ∧ 1 ≤ (s.mailbox 5).head.sends
      ∧ (s.mailbox 5).head.countdown = 0 ∧ s.cfg.sendLimit.toNat ≤ (s.mailbox 5).head.sends
      ∧ (s.station 5).state = .member :=
  ⟨⟨rfl, rfl⟩, rfl, by decide, by decide, by decide, fun _ h => mail5_alone h, by decide, rfl, by decide, rfl⟩
/-- Stations 47 and 5 have heads; 47, at the send limit, is examined first. -/
theorem test_meets_ArbitrationServesInOrder :
    let s := { at7 .arbitrationDue with
      arbiterPointer := 46, stations := ⟨[(5, member5), (47, member5)]⟩
      mailboxes := ⟨[(5, counting 0), (47, { counting 0 with head := ⟨some 2, 8, 0⟩ })]⟩ }
    let order := List.range' (s.arbiterPointer + 1) (47 - s.arbiterPointer) ++ List.range' 1 s.arbiterPointer
    (s.inReset = false ∧ s.takeDue = false ∧ s.timer.timing = .running .arbitrationDue)
      ∧ (order.filter (fun a => s.eligible a && !s.atSendLimit a)).take 8 = [5]
      ∧ order.filter (fun a => s.eligible a && s.atSendLimit a && decide
          ((order.takeWhile (fun b => b != a)).countP (fun b => s.eligible b && !s.atSendLimit b) < 8)) = [47] := by
  decide +kernel
theorem test_meets_HandlesAndEffectiveFrames :
    ((sealing State.reset).map.openEpoch = some epoch255 ∧ epoch255.names 3 = true)
    ∧ ((∀ o, swapping.map.openEpoch = some o → o.names 3 = false) ∧ swapping.map.sealedEpoch = some epoch255)
    ∧ ((∀ o, State.reset.map.openEpoch = some o → o.names 3 = false)
      ∧ ∀ e, State.reset.map.sealedEpoch = some e → e.names 3 = false)
    ∧ State.reset.timer.timing = .stopped ∧ (at7 .startDue).timer.timing = .running .startDue
    ∧ FramePlace.slot 0 ≠ .startDue := ⟨⟨rfl, by decide⟩, ⟨nofun, rfl⟩, ⟨nofun, nofun⟩, rfl, rfl, by decide⟩
/-- An ask of station 5 waits alone. -/
def oneAsk (f : AskFields) (s : State) : State := { s with askQueue := [⟨5, f⟩] }
theorem test_meets_TheArbiterAlternates : (busy (placement .noRoom) create5 State.reset).engine.context.isSome = true
    ∧ (State.reset.port.inProgress = none ∧ State.reset.askQueue = [])
    ∧ ((working create5 State.reset).engine.context = none ∧ (working create5 State.reset).port.inProgress = some create5
      ∧ (working create5 State.reset).port.requests = [] ∧ (working create5 State.reset).askQueue = [])
    ∧ ((oneAsk ⟨1, 0, 0, 0, false, 0, 0⟩ (working create5 State.reset)).engine.lastKind = .uplink)
    ∧ (oneAsk ⟨1, 0, 0, 0, false, 0, 0⟩ State.reset).port.inProgress = none := ⟨rfl, ⟨rfl, rfl⟩, ⟨rfl, rfl, rfl, rfl⟩, rfl, rfl⟩
/-- The station conditions of a take's checks, with a CREATE of this many slots in this pattern. -/
def taking (r : Station) (count : BitVec 7) (pattern : BitVec 2) : State :=
  working (createEntry (headOf 5) { twoSlots with count, pattern }) (station5 r State.reset)
theorem test_meets_NewTakesAreChecked_create :
    (let s := taking member5 2 0
     s.inReset = false ∧ s.engine.context = none ∧ s.askQueue = [] ∧ create5.op = .create ∧ s.port.requests = []
       ∧ create5.station = 5)
    ∧ ((taking Station.fresh 2 0).station 5).state = .absent
    ∧ ((taking { member5 with suspended := true } 2 0).station 5).suspended = true
    ∧ ((createEntry (headOf 5) { twoSlots with count := 65 }).createFields.count.toNat = 65
      ∧ (createEntry (headOf 5) { twoSlots with count := 0 }).createFields.count.toNat = 0
      ∧ (createEntry (headOf 5) { twoSlots with pattern := 3 }).createFields.pattern = 3)
    ∧ 16 ≤ ((taking { member5 with held := 16 } 2 0).station 5).held
    ∧ ((taking { member5 with planned := 63 } 2 0).station 5).quota.toNat < 63 + 2
    ∧ { taking member5 2 0 with freeQueue := [] }.freeQueue = [] := by decide
theorem test_meets_NewTakesAreChecked_ask :
    let f : AskFields := ⟨1, 63, 0, 1, false, 0, 0⟩
    let s := oneAsk f (station5 { member5 with planned := 0 } State.reset)
    (s.inReset = false ∧ s.engine.context = none ∧ s.askQueue = [⟨5, f⟩] ∧ s.port.inProgress = none)
    ∧ ((station5 { member5 with state := .quiet } State.reset).station 5).state ≠ .member
    ∧ (s.station 5).maxClass < (2 : BitVec 2) ∧ f.cls ≤ (s.station 5).maxClass
    ∧ (s.station 5).planned + (f.countLessOne.toNat + 1) ≤ (s.station 5).quota.toNat
    ∧ (member5.planned = 1 ∧ member5.quota.toNat < 1 + (f.countLessOne.toNat + 1)) := by decide
theorem test_meets_TakesReserve_create :
    let s := taking member5 2 0
    s.inReset = false ∧ s.engine.context = none ∧ s.port.inProgress = some create5 ∧ s.askQueue = [] ∧ create5.op = .create
      ∧ 1 ≤ create5.station ∧ create5.station ≤ 47 ∧ (s.station create5.station).state = .member
      ∧ (s.station create5.station).suspended = false ∧ 1 ≤ create5.createFields.count.toNat
      ∧ create5.createFields.count.toNat ≤ 64 ∧ Pattern.ofBits create5.createFields.pattern = some .any
      ∧ (s.station create5.station).held < 16
      ∧ (s.station create5.station).planned + create5.createFields.count.toNat ≤ (s.station create5.station).quota.toNat
      ∧ s.freeQueue = 0 :: List.range' 1 239 ∧ (∀ n, s.planAt n ≠ some 0)
      ∧ freshSearch .any s.timer.code (fun n => s.planAt n == none && s.taintAt n == 0) 2 = some [64, 65] :=
  ⟨rfl, rfl, by decide, rfl, by decide, by decide, by decide, by decide, by decide, by decide, by decide, by decide,
    by decide, by decide, by decide +kernel, nofun, by decide +kernel⟩
theorem test_meets_TakesReserve_ask :
    let f : AskFields := ⟨1, 1, 0, 1, false, 0, 0⟩
    let s := oneAsk f (station5 member5 State.reset)
    (s.inReset = false ∧ s.engine.context = none ∧ s.askQueue = [⟨5, f⟩] ∧ s.port.inProgress = none)
    ∧ ((s.station 5).state = .member ∧ (s.station 5).suspended = false ∧ f.cls ≤ (s.station 5).maxClass
      ∧ Pattern.ofBits f.pattern = some .any ∧ (s.station 5).held < 16
      ∧ (s.station 5).planned + (f.countLessOne.toNat + 1) ≤ (s.station 5).quota.toNat)
    ∧ s.freeQueue = 0 :: List.range' 1 239 := by decide +kernel
/-- The port has a RESIZE of grant 2:003 to this count in progress, for this record and station. -/
def resizing (g : Grant) (r : Station) (n : BitVec 7) : State :=
  working (resizeEntry (headOf 0) ⟨2, 3⟩ n) (holding g r State.reset)
theorem test_meets_ResizeTakes :
    (let s := resizing grantOf5 member5 1
     s.inReset = false ∧ s.engine.context = none ∧ s.askQueue = [] ∧ s.port.requests = []
       ∧ (resizeEntry (headOf 0) ⟨2, 3⟩ 1).op = .resize ∧ (resizeEntry (headOf 0) ⟨2, 3⟩ 1).handle = ⟨2, 3⟩
       ∧ s.handlePasses ⟨2, 3⟩ = true ∧ (s.grant 3).state ≠ .draining ∧ (s.grant 3).owner = some 5
       ∧ (s.station 5).state = .member ∧ (s.station 5).suspended = false ∧ 1 ≤ (s.grant 3).planCount
       ∧ 1 = (s.planSlots 3).length ∧ (s.grant 3).pattern ≠ .even)
    ∧ (resizing grantOf5 member5 1).handlePasses ⟨3, 3⟩ = false
    ∧ ((resizing { grantOf5 with state := .draining } member5 1).grant 3).state = .draining
    ∧ ((resizing grantOf5 { member5 with state := .leaving } 1).station 5).state = .leaving
    ∧ ((resizing grantOf5 { member5 with suspended := true } 1).station 5).suspended = true
    ∧ ((resizeEntry (headOf 0) ⟨2, 3⟩ 0).newCount.toNat = 0 ∧ (resizeEntry (headOf 0) ⟨2, 3⟩ 65).newCount.toNat = 65)
    ∧ ((resizing grantOf5 { member5 with planned := 64 } 2).station 5).quota.toNat < 64 + (2 - grantOf5.planCount) := by
  decide +kernel
theorem test_meets_PatternSearches : anySearch .l256 (fun n => n == 64 || n == 255) 2 = some [64, 255]
    ∧ anySearch .l256 (fun _ => false) 1 = none ∧ (1 ≤ 64 ∧ 64 ≤ 64)
    ∧ blockSearch .l256 (fun n => decide (192 ≤ n)) 64 = some (List.range' 192 64)
    ∧ evenSearch .l256 (fun _ => true) 3 = some [64, 128, 192] := by decide +kernel
/-- Record 3, of class 0 and preemptible, holds every payload slot: a candidate for a placement of class 1. -/
def full : State :=
  { holding { grantOf5 with preemptible := true } member5 State.reset with
    map := { State.reset.map with plan := ⟨(List.range' 64 192).map (fun n => (n, some 3))⟩ } }
theorem test_meets_SearchesAndPreemption : full.candidates 4 6 1 = [3]
    ∧ full.search 4 6 1 (fun avail => freshSearch .any .l256 avail 1) = .chosen [64] [⟨2, 3⟩]
    ∧ freshSearch .any .l256 (full.available 4 []) 1 = none ∧ full.cfg.preempt = true ∧ full.candidates 4 5 1 = [] := by
  decide +kernel
theorem test_meets_SearchesAndPreemption_resize : [64, 65].Pairwise (· < ·)
    ∧ (∀ x ∈ [64, 65], 64 ≤ x ∧ x < LengthCode.l256.slots)
    ∧ [64, 65].length < 3 ∧ [64, 65] = List.range' 64 2
    ∧ resizeSearch .any .l256 (fun n => n == 255) [64, 65] 3 = some [64, 65, 255]
    ∧ resizeSearch .block .l256 (fun n => decide (66 ≤ n)) [64, 65] 3 = some [64, 65, 66]
    ∧ resizeSearch .block .l256 (fun n => n == 69) [70, 71] 3 = some [69, 70, 71]
    ∧ resizeSearch .block .l256 (fun n => decide (100 ≤ n)) [70, 71] 3 = some [100, 101, 102] := by decide +kernel
/-- Record 3 is PLACING for station 5, and the engine is BUSY with it. -/
def placing (r : Station) (o : Found) : State :=
  busy (placement o) create5
    { State.reset with
      grants := ⟨[(3, { grantOf5 with state := .placing, planCount := 0, activeCount := 0, requested := 2 })]⟩
      stations := ⟨[(5, r)]⟩ }
/-- As `placing`, with the ask 7 of station 5 and lease code 2 in flight. -/
def placingAsk (r : Station) (o : Found) : State :=
  { placing r o with
    engine := { context := some { placement o with kind := .ask 3 7 2 }, lastKind := .uplink }
    port := { State.reset.port with inProgress := none }, asks := ⟨[(5, ⟨.inFlight 7, none⟩)]⟩ }
theorem test_meets_PlacementsEndWithoutACommit :
    (let s := placing { member5 with state := .leaving } .noRoom
     s.ready ∧ s.engine.context = some (placement .noRoom) ∧ s.port.inProgress = some create5 ∧ s.port.requests = []
       ∧ (s.grant 3).owner = some 5 ∧ (s.station 5).state ≠ .member ∧ (s.station 5).state ≠ .quiet ∧ (s.station 5).held ≤ 1)
    ∧ ((placing member5 .noRoom).station 5).state = .member ∧ (placement .noRoom).outcome = .noRoom :=
  ⟨⟨⟨rfl, rfl⟩, rfl, rfl, rfl, rfl, by decide, by decide, by decide⟩, rfl, rfl⟩
/-- The engine is BUSY with a RESIZE of grant 2:003, or with an ask, that found no room. -/
theorem test_meets_PlacementsEndWithoutACommit_others :
    (let s := busy { placement .noRoom with kind := .resize ⟨2, 3⟩ } create5 (granted grantOf5)
     s.inReset = false ∧ s.takeDue = false ∧ s.handlePasses ⟨2, 3⟩ = true ∧ (s.grant 3).state ≠ .draining
       ∧ s.port.inProgress = some create5 ∧ (s.station 5).state = .member ∧ s.port.requests = [])
    ∧ (let s := placingAsk member5 .noRoom
     s.inReset = false ∧ s.takeDue = false ∧ (s.grant 3).owner = some 5 ∧ (s.station 5).state = .member) := by
  decide +kernel
theorem test_meets_CommitPlacesTheGrant :
    let s := placing member5 (.chosen [64, 65] [])
    s.ready ∧ s.engine.context = some (placement (.chosen [64, 65] [])) ∧ (s.station 5).state = .member
      ∧ s.port.inProgress = some create5 ∧ s.port.requests = []
      ∧ s.placesNew (placement (.chosen [64, 65] [])) 3 ∧ [64, 65] ≠ ([] : List Nat) ∧ [64, 65].Nodup
      ∧ (∀ n ∈ [64, 65], n ∈ s.payload ∧ s.planAt n = none) ∧ s.map.openEpoch = none
      ∧ (sealing s).map.openEpoch = some epoch255 ∧ (s.mailbox 5).queue.length < 8 :=
  ⟨⟨rfl, rfl⟩, rfl, rfl, rfl, rfl, ⟨by decide, rfl, rfl, rfl, rfl, nofun⟩, by decide, by decide, by decide +kernel, rfl, rfl,
    by decide⟩
theorem test_meets_CommitPlacesTheGrant_ask :
    let s := placingAsk member5 (.chosen [64, 65] [])
    s.ready ∧ (s.station 5).state = .member ∧ s.placesNew (placement (.chosen [64, 65] [])) 3
      ∧ s.engine.context = some { placement (.chosen [64, 65] []) with kind := .ask 3 7 2 }
      ∧ ((2 : BitVec 4) = BitVec.ofNat 4 2 ∧ (128 : BitVec 16).setWidth 32 = s.registerRead (BitVec.ofNat 6 (0x10 + 2))) :=
  ⟨⟨rfl, rfl⟩, rfl, ⟨by decide, rfl, rfl, rfl, rfl, nofun⟩, rfl, rfl, by decide⟩
/-- Record 4 is PLACING for station 6 with slots 64 and 65; record 3 of station 5 owns 64, and is a victim. -/
def preempting : State :=
  busy { kind := .create 4 6, station := 6, newCount := 2, outcome := .chosen [64, 65] [⟨2, 3⟩, ⟨1, 3⟩] } create5
    { holding grantOf5 member5 State.reset with
      grants := ⟨[(3, grantOf5), (4, { grantOf5 with state := .placing, owner := some 6, planCount := 0, activeCount := 0 })]⟩
      stations := ⟨[(5, member5), (6, { member5 with planned := 0 })]⟩ }
theorem test_meets_CommitsRetireTheirVictims : preempting.ready ∧ (preempting.station 6).state = .member
    ∧ preempting.port.requests = [] ∧ preempting.map.follows
    ∧ ([⟨2, 3⟩, ⟨1, 3⟩] : List Handle).filter
        (fun v => preempting.handlePasses v && (preempting.grant v.index.toNat).state != .draining) = [⟨2, 3⟩]
    ∧ preempting.canRetire 3 ∧ preempting.placesNew { placement .noRoom with station := 6 } 4
    ∧ (∀ n ∈ [64, 65], n ∈ preempting.payload ∧ (preempting.planAt n = none ∨ preempting.planAt n = some 3)) := by
  refine ⟨⟨rfl, rfl⟩, rfl, rfl, ⟨fun _ => ⟨nofun, nofun, fun _ => rfl⟩, nofun, nofun⟩, by decide,
    ⟨by decide, rfl, by decide +kernel⟩,
    ⟨by decide, rfl, rfl, rfl, rfl, ?_⟩, by decide +kernel⟩
  intro n
  by_cases e : (n == 64) = true <;> simp [preempting, busy, holding, State.planAt, Table.get, List.lookup, e]
/-- The RESIZE of grant 4 of station 6 from slot 66 to 64 and 65; record 3 of station 5 owns 64, and is a victim. -/
def preemptingResize : State :=
  busy { kind := .resize ⟨2, 4⟩, station := 6, newCount := 2, outcome := .chosen [64, 65] [⟨2, 3⟩, ⟨1, 3⟩] } create5
    { holding grantOf5 member5 State.reset with
      grants := ⟨[(3, grantOf5), (4, { grantOf5 with owner := some 6 })]⟩
      stations := ⟨[(5, member5), (6, member5)]⟩
      map := { State.reset.map with plan := ⟨[(64, some 3), (66, some 4)]⟩, active := ⟨[(64, some 3), (66, some 4)]⟩ } }
theorem test_meets_CommitsRetireTheirVictims_resize : preemptingResize.ready ∧ preemptingResize.map.follows
    ∧ ((preemptingResize.station 6).state = .member ∧ preemptingResize.port.requests = []
      ∧ preemptingResize.handlePasses ⟨2, 4⟩ = true ∧ (preemptingResize.grant 4).state ≠ .draining
      ∧ (preemptingResize.grant 4).owner = some 6 ∧ (preemptingResize.grant 4).planCount = (preemptingResize.planSlots 4).length)
    ∧ ([⟨2, 3⟩, ⟨1, 3⟩] : List Handle).filter
        (fun v => preemptingResize.handlePasses v && (preemptingResize.grant v.index.toNat).state != .draining) = [⟨2, 3⟩]
    ∧ preemptingResize.canRetire 3
    ∧ (∀ n ∈ [64, 65], n ∈ preemptingResize.payload
      ∧ (preemptingResize.planAt n = none ∨ preemptingResize.planAt n = some 3))
    ∧ ((after .commitPoint preemptingResize).mailbox 6).queue = [.shifted ⟨2, 4⟩ 2 16] :=
  ⟨⟨rfl, rfl⟩, ⟨fun _ => ⟨nofun, nofun, fun _ => rfl⟩, nofun, nofun⟩, by decide +kernel, by decide,
    ⟨by decide, rfl, by decide +kernel⟩, by decide +kernel, by decide +kernel⟩
theorem test_preemption : ((after .commitPoint preempting).grant 3).state = .draining
    ∧ (after .commitPoint preempting).planSlots 4 = [64, 65]
    ∧ ((after .commitPoint preempting).mailbox 5).queue = [.revoked ⟨2, 3⟩ .preempted 16] := by decide +kernel
/-- The engine is BUSY with a RESIZE of grant 2:003 to these slots. -/
def resizeBusy (g : Grant) (h : Handle) (slots : List Nat) : State :=
  busy { kind := .resize h, station := 5, newCount := slots.length, outcome := .chosen slots [] } create5
    (holding g member5 State.reset)
theorem test_meets_ResizesCommit :
    let s := resizeBusy grantOf5 ⟨2, 3⟩ [64, 255]
    s.ready ∧ (s.station 5).state = .member ∧ s.port.requests = [] ∧ s.handlePasses ⟨2, 3⟩ = true
      ∧ (s.grant 3).state ≠ .draining ∧ (s.grant 3).owner = some 5 ∧ [64, 255] ≠ ([] : List Nat) ∧ [64, 255].Nodup
      ∧ (∀ n ∈ [64, 255], n ∈ s.payload ∧ (s.planAt n = none ∨ s.planAt n = some 3))
      ∧ (s.grant 3).planCount = (s.planSlots 3).length ∧ (s.planSlots 3).length ≤ (s.station 5).planned
      ∧ (s.grant 3).activeCount ≠ 0
      ∧ ((resizeBusy { grantOf5 with activeCount := 0 } ⟨2, 3⟩ [64]).grant 3).activeCount = 0
      ∧ (resizeBusy grantOf5 ⟨3, 3⟩ [64]).handlePasses ⟨3, 3⟩ = false
      ∧ ((resizeBusy { grantOf5 with state := .draining } ⟨2, 3⟩ [64]).grant 3).state = .draining :=
  ⟨⟨rfl, rfl⟩, by decide +kernel⟩
theorem test_meets_TakesAtThePort : (State.reset.ready ∧ State.reset.portFree) ∧ (13 ≤ (13 : BitVec 4).toNat)
    ∧ (plainEntry 12 ⟨true, 47, 0⟩).resume = true ∧ (plainEntry 12 ⟨true, 47, 0⟩).station = 47
    ∧ (plainEntry 12 ⟨false, 47, 0⟩).resume = false ∧ 48 ≤ (plainEntry 12 ⟨true, 48, 0⟩).station :=
  ⟨⟨ready_reset, free_reset⟩, by decide, by decide, by decide, by decide, by decide⟩
theorem test_meets_RequestEntriesRoundTrip : requestEntry (.create (headOf 5) twoSlots) = some create5
    ∧ (Instr.create (headOf 5) twoSlots).wellFormed = true
    ∧ (requestEntry (.unknownOp (headOf 0) 15)).isSome = true ∧ (Instr.unknownOp (headOf 0) 15).wellFormed = true := by decide
/-- The port with this many requests and results waiting, and the engine BUSY with a request where `b`. -/
def queued (m n : Nat) (b : Bool) : State :=
  { State.reset with
    port := { State.reset.port with
      requests := List.replicate m create5, results := List.replicate n create5
      inProgress := if b then some create5 else none }
    engine := { State.reset.engine with context := some (placement .noRoom) } }
theorem test_meets_PostsAndPops : (queued 15 0 true).ready ∧ (queued 15 0 true).port.requests.length < 16
    ∧ (queued 15 0 true).port.inProgress.isSome = true ∧ 32 ≤ (queued 0 32 false).port.results.length
    ∧ 16 ≤ (queued 16 0 true).port.requests.length ∧ (queued 0 0 false).port.results = []
    ∧ (queued 0 1 false).port.results = [create5] ∧ (queued 0 1 false).port.requests = []
    ∧ ((queued 1 32 false).port.requests = [create5] ∧ (queued 1 32 false).port.inProgress = none ∧ create5.op = .create
      ∧ (queued 1 32 false).port.results.tail.length < 32) :=
  ⟨⟨rfl, rfl⟩, by decide, rfl, by decide, by decide, rfl, rfl, rfl, rfl, rfl, by decide, by decide⟩
/-- A RELEASE of grant 2:003 whose words are written apart, with a 1 in a bit of no field; and the post of it. -/
theorem test_meets_PostsAndPops_apart :
    (let s := { granted grantOf5 with
      port := { State.reset.port with staging := ⟨0x00090003, 0x80000203, 0, 0⟩ } }
     s.inReset = false ∧ s.takeDue = false ∧ s.port.staging.op = .release
       ∧ ((after (.rqpost 0) s).grant 3).state = .draining)
    ∧ requestEntry (.release (headOf 0) ⟨2, 3⟩) = some ⟨0x00090003, 0x00000203, 0, 0⟩ := by decide +kernel
/-- A full result queue lets no head be taken; the pop lets the port take a CENSUS, which fills it again, and no more. -/
theorem test_meets_ThePortServesItsHeads :
    ((queued 0 0 false).port.requests = [] ∧ (queued 1 0 true).port.inProgress.isSome = true
      ∧ 32 ≤ (queued 1 32 false).port.results.length)
    ∧ ((queued 2 31 false).port.requests = [create5, create5] ∧ (queued 2 31 false).port.inProgress = none
      ∧ (queued 2 31 false).port.results.length < 32 ∧ (queued 2 31 false).inReset = false)
    ∧ (queued 2 32 false).takeDue = false ∧ (queued 2 0 true).takeDue = false ∧ (queued 15 0 true).port.requests.length < 16
    ∧ (let c := plainEntry 12 (headOf 0)
     let s := { queued 0 32 false with port := { (queued 0 32 false).port with requests := [c, c] } }
     (after (.rspop 0) s).port.requests = [c] ∧ (after (.rspop 0) s).port.results.length = 32) := by decide +kernel
theorem test_meets_ReleaseRetires : ((granted grantOf5).ready ∧ (granted grantOf5).portFree)
    ∧ (granted grantOf5).handlePasses ⟨1, 3⟩ = false
    ∧ ((granted { grantOf5 with state := .draining }).handlePasses ⟨2, 3⟩ = true
      ∧ ((granted { grantOf5 with state := .draining }).grant 3).state = .draining)
    ∧ ((granted grantOf5).handlePasses ⟨2, 3⟩ = true ∧ (granted grantOf5).canRetire 3
      ∧ ((granted grantOf5).grant 3).owner = some 5 ∧ ((granted grantOf5).station 5).state.present = true) :=
  ⟨ready_granted _, by decide, by decide, by decide, canRetire3 rfl rfl _ _ rfl, rfl, rfl⟩
theorem test_meets_RetireAllRetires : 48 ≤ (headOf 48).station.toNat ∧ (headOf 47).station.toNat ≤ 47
    ∧ (let s := granted grantOf5
     (List.range 240).filter (fun i => (s.grant i).state.retirable
         && ((headOf 5).station.toNat == 0 || (s.grant i).owner == some (headOf 5).station.toNat)) = [3]
       ∧ (List.range 240).filter (fun i => (s.grant i).state.retirable
         && ((headOf 0).station.toNat == 0 || (s.grant i).owner == some (headOf 0).station.toNat)) = [3]
       ∧ (List.range 240).filter (fun i => (s.grant i).state.retirable
         && ((headOf 6).station.toNat == 0 || (s.grant i).owner == some (headOf 6).station.toNat)) = [])
    ∧ ((granted { grantOf5 with state := .draining }).grant 3).state.retirable = false := by decide +kernel
theorem test_meets_RetireAllRetires_claim : (granted grantOf5).canRetire 3
    ∧ (∃ o, (after (.retireAll (headOf 5)) (granted grantOf5)).map.openEpoch = some o ∧ o.names 3 = true)
    ∧ (granted grantOf5).ready ∧ (granted grantOf5).portFree :=
  ⟨canRetire3 rfl rfl _ _ rfl, ⟨_, rfl, by decide +kernel⟩, ready_granted _⟩
theorem test_meets_RenewRequestsLoadTheLease : (granted grantOf5).handlePasses ⟨2, 3⟩ = true
    ∧ ((granted grantOf5).grant 3).state ≠ .draining ∧ ((granted grantOf5).mailbox 5).queue.length < 8
    ∧ 8 ≤ ((mailing { counting 0 with queue := List.replicate 8 .joined } (granted grantOf5)).mailbox 5).queue.length := by
  decide
theorem test_meets_SetStationAndEvict_limits : ((headOf 48).station.toNat = 48 ∧ 960 < (961 : BitVec 10).toNat)
    ∧ ((headOf 47).station.toNat ≤ 47 ∧ (960 : BitVec 10).toNat ≤ 960)
    ∧ ((station5 member5 State.reset).station 5).barred = false
    ∧ ((station5 member5 State.reset).station 5).state.present = true
    ∧ ((station5 { member5 with barred := true } State.reset).station 5).barred = true := by decide
theorem test_meets_SetStationAndEvict_evict : (headOf 0).station = 0 ∧ ((State.reset).station 5).state = .absent
    ∧ ((station5 member5 State.reset).station 5).state.present = true
    ∧ ((station5 { member5 with state := .joining } State.reset).station 5).state = .joining := by decide
theorem test_meets_GrantAndSlotLookupsReport_grant : ((granted grantOf5).grant 3).state = .live
    ∧ (∀ st, st = GrantState.pending ∨ st = .shifting ∨ st = .draining →
      (granted { grantOf5 with state := st }).handlePasses ⟨2, 3⟩ = true
        ∧ ((granted { grantOf5 with state := st }).grant 3).state = st)
    ∧ (granted grantOf5).handlePasses ⟨2, 4⟩ = false := by
  refine ⟨rfl, ?_, by decide⟩
  rintro st (rfl | rfl | rfl) <;> decide
theorem test_meets_GrantAndSlotLookupsReport_slot :
    ((63 : BitVec 10).toNat < 64 ∧ State.reset.timer.code.slots ≤ (256 : BitVec 10).toNat)
    ∧ (64 ≤ (64 : BitVec 10).toNat ∧ (255 : BitVec 10).toNat < State.reset.timer.code.slots)
    ∧ (State.reset.activeAt 64 = none ∧ (granted grantOf5).activeAt 64 = some 3)
    ∧ (State.reset.planAt 64 = none ∧ (granted grantOf5).planAt 64 = some 3)
    ∧ ((granted grantOf5).handlePasses ⟨2, 3⟩ = true ∧ (granted grantOf5).handlePasses ⟨3, 3⟩ = false) := by decide
theorem test_meets_StationAndCensusLookupsReport : ((headOf 48).station.toNat = 48 ∧ 1 ≤ (headOf 1).station.toNat)
    ∧ ((asking ⟨.waiting 4, none⟩ []).ask 5).status = .waiting 4 ∧ ((asking ⟨.inFlight 4, none⟩ []).ask 5).status = .inFlight 4
    ∧ (State.reset.ask 5).status = .none ∧ swapping.map.sealedEpoch = some epoch255 ∧ State.reset.map.sealedEpoch = none
    ∧ (sealing State.reset).map.openEpoch = some epoch255 ∧ State.reset.map.openEpoch = none := by decide
theorem test_meets_ConfigurationWritesAreJudged :
    (State.reset.timer.timing = .stopped ∧ (∀ i, i < 240 → (State.reset.grant i).state = .free)
      ∧ State.reset.freeQueue.length = 240 ∧ State.reset.map.openEpoch = none ∧ State.reset.map.sealedEpoch = none)
    ∧ ¬ ((at7 (.slot 0)).timer.timing = .stopped)
    ∧ State.reset.readyOrBeforeTake ∧ (takeNext State.reset).takeDue = true ∧ (takeNext State.reset).readyOrBeforeTake :=
  ⟨⟨rfl, fun _ _ => rfl, rfl, rfl, rfl⟩, nofun, ⟨rfl, .inl rfl⟩, rfl, ⟨rfl, .inr rfl⟩⟩
theorem test_meets_PlainRegisterWrites : (1 ≤ 15 ∧ 15 ≤ 15 ∧ 1 ≠ 15)
    ∧ (0x2B ≤ (0x2B : BitVec 6).toNat ∧ 0x2B ≤ (0x3F : BitVec 6).toNat) := by decide
theorem test_meets_RegisterReads : State.reset.inReset = false ∧ (after .deviceReset State.reset).inReset = true ∧
    State.reset.takeDue = false ∧ 0x2C ≤ (0x2C : BitVec 6).toNat ∧ (queued 16 32 false).port.requests.length ≤ 16
    ∧ (queued 16 32 false).port.results.length ≤ 32 ∧ (queued 16 32 false).askQueue.length ≤ 47
    ∧ State.reset.timer.request = .none ∧ (after .runRequest State.reset).timer.request = .start
    ∧ (after .stopRequest (at7 (.slot 0))).timer.request = .stop := by decide
theorem test_meets_InterruptFlags : (0x1FF : BitVec 9).getLsbD Flag.clash.bit = true ∧ Flag.clash ≠ .epoch
    ∧ exec .deviceReset State.reset = .next (after .deviceReset State.reset) := ⟨by decide, by decide, rfl⟩
/-- Every invariant's premise holds of a running state that holds a grant, and its step completes. -/
def invariantState : State := { inSlot5 .member 0 with pending := [.keep 0] }
theorem test_meets_TheStateStaysLegal : invariantState.legal ∧ ∃ t, step invariantState = .next t := by
  refine ⟨⟨?_, ⟨nofun, nofun, ?_⟩, ?_, ⟨fun _ => Nat.zero_le _, rfl⟩, by decide, nofun⟩, _, rfl⟩
  · unfold Registers.legal
    decide
  · intro n h
    cases h
    decide
  · exact ⟨by decide, by decide, nofun⟩
theorem test_meets_TablesStayCanonical : invariantState.canonical ∧ ∃ t, step invariantState = .next t :=
  ⟨⟨⟨by decide, by decide, rfl, rfl⟩, ⟨by decide, by decide, rfl⟩, nofun, nofun⟩, _, rfl⟩
theorem test_meets_PlanFollowsActive : invariantState.map.follows ∧ ∃ t, step invariantState = .next t :=
  ⟨⟨fun _ => ⟨nofun, nofun, fun _ => rfl⟩, nofun, nofun⟩, _, rfl⟩
theorem test_meets_PlacementStaysLegal : (placing member5 (.chosen [64, 65] [])).engine.legal
    ∧ ∃ t, step { placing member5 (.chosen [64, 65] []) with pending := [.commitPoint] } = .next t := by
  refine ⟨?_, _, rfl⟩
  intro c h
  cases h
  refine ⟨by decide, ?_⟩
  intro t v h
  cases h
  decide

/-- The part after reset, but for grant 3 of station 5; a RETIRE_ALL comes next. -/
def booked : State :=
  { holding grantOf5 member5 State.reset with
    freeQueue := (List.range 240).erase 3, pending := [.retireAll (headOf 5)] }
theorem booked_grant (i : Nat) : booked.grant i = if i = 3 then grantOf5 else Grant.freeWith 0 := by
  by_cases h : i = 3
  · subst h; rfl
  · have h' : (i == 3) = false := by simpa using h
    simp [booked, holding, State.grant, Table.get, List.lookup, h, h']
theorem booked_maps (n : Nat) : booked.planAt n = (if n = 64 then some 3 else none) ∧ booked.activeAt n = booked.planAt n := by
  refine ⟨?_, rfl⟩
  by_cases h : n = 64
  · subst h; rfl
  · have h' : (n == 64) = false := by simpa using h
    simp [booked, holding, State.planAt, Table.get, List.lookup, h, h']
theorem booked_slots (i : Nat) :
    booked.planSlots i = (if i = 3 then [64] else []) ∧ booked.activeSlots i = booked.planSlots i := by
  refine ⟨?_, rfl⟩
  by_cases h : i = 3
  · subst h
    decide +kernel
  · simp only [h, if_false]
    unfold State.planSlots
    rw [List.filter_eq_nil_iff]
    intro n _
    rw [(booked_maps n).1]
    by_cases k : n = 64 <;> simp [k, Ne.symm h]
theorem booked_station (a : Nat) : booked.station a = if a = 5 then member5 else Station.fresh := by
  by_cases h : a = 5
  · subst h; rfl
  · have h' : (a == 5) = false := by simpa using h
    simp [booked, holding, State.station, Table.get, List.lookup, h, h']
theorem booked_records (a : Nat) : State.recordsOf a booked = if a = 5 then [3] else [] := by
  by_cases h : a = 5
  · subst h
    decide +kernel
  · simp only [h, if_false]
    unfold State.recordsOf
    rw [List.filter_eq_nil_iff]
    intro i _
    rw [booked_grant]
    by_cases k : i = 3 <;> simp [k, grantOf5, Grant.freeWith, Ne.symm h]
theorem test_meets_TheBooksAgree : booked.booksAgree ∧ ∃ t, step booked = .next t := by
  refine ⟨⟨⟨fun _ => ⟨nofun, nofun, fun _ => rfl⟩, nofun, nofun⟩, ?_, ?_, ?_, ?_, ?_, ?_, nofun⟩, _, rfl⟩
  · intro i
    rw [(booked_slots i).2, (booked_slots i).1, booked_grant]
    by_cases k : i = 3 <;> simp [k, grantOf5, Grant.freeWith]
  · intro n i h
    have e : booked.planAt n = some i := by
      rcases h with h | h | ⟨c, h | h, _⟩
      · exact h
      · exact h
      · cases h
      · cases h
    rw [(booked_maps n).1] at e
    by_cases k : n = 64
    · subst k
      cases e
      exact ⟨by decide, by decide, by decide, by decide⟩
    · simp [k] at e
  · intro i
    by_cases k : i = 3
    · subst k
      exact ⟨fun _ => ⟨by decide, by decide +kernel⟩, nofun⟩
    · rw [booked_grant, if_neg k]
      exact ⟨fun h => absurd rfl h, fun _ => rfl⟩
  · refine ⟨by decide +kernel, fun i => ?_⟩
    rw [booked_grant]
    have e : booked.freeQueue = (List.range 240).erase 3 := rfl
    rw [e, List.Nodup.mem_erase_iff List.nodup_range, List.mem_range]
    by_cases k : i = 3 <;> simp [k, grantOf5, Grant.freeWith, Config.grantCount]
  · intro a
    rw [booked_records, booked_station]
    by_cases k : a = 5
    · subst k
      exact ⟨rfl, by decide, rfl⟩
    · simp [k, Station.fresh]
  · intro i h
    by_cases k : i = 3
    · subst k
      exact ⟨5, rfl, .inl rfl⟩
    · rw [booked_grant, if_neg k] at h
      exact absurd rfl h

end Sys2Proof.Tests
end

section
/-! R5 and R6: the run and stop requests, the RUN bit, and the frame number at the start of the highway (O5). -/

namespace Sys2Proof.Machine

variable {s : State} {t : Timer}

/-! ## The commands of this part as events -/

theorem exec_runRequest (s : State) : exec .runRequest s = s.event (State.updTimer Timer.runRequest) := rfl

theorem exec_stopRequest (s : State) : exec .stopRequest s = s.event (State.updTimer Timer.stopRequest) := rfl

theorem exec_highwayStart (s : State) : exec .highwayStart s = s.event State.highwayStart := rfl

theorem exec_registerWrite_control (w : Word) (s : State) :
    exec (.registerWrite 0x01 w) s
      = s.event (State.updTimer (if w.getLsbD 0 then Timer.runRequest else Timer.stopRequest)) := rfl

/-- A write of RUN is the request that the bit written names (R5). -/
theorem exec_registerWrite_run (w : Word) (s : State) :
    exec (.registerWrite 0x01 w) s = if w.getLsbD 0 then exec .runRequest s else exec .stopRequest s := by
  rw [exec_registerWrite_control, exec_runRequest, exec_stopRequest]
  split <;> rfl

/-! ## The rows of R5, on the Frame Timer -/

theorem Timer.requests_of_stopped_none (ht : t.timing = .stopped) (hr : t.request = .none) :
    t.runRequest = { t with request := .start } ∧ t.stopRequest = t ∧ t.runBit = false := by
  simp [Timer.runRequest, Timer.stopRequest, Timer.runBit, ht, hr]

theorem Timer.requests_of_stopped_start (ht : t.timing = .stopped) (hr : t.request = .start) :
    t.runRequest = t ∧ t.stopRequest = { t with request := .none } ∧ t.runBit = true := by
  simp [Timer.runRequest, Timer.stopRequest, Timer.runBit, ht, hr]

theorem Timer.requests_of_running_none {p : FramePlace} (ht : t.timing = .running p) (hr : t.request = .none) :
    t.runRequest = t ∧ t.stopRequest = { t with request := .stop } ∧ t.runBit = true := by
  simp [Timer.runRequest, Timer.stopRequest, Timer.runBit, ht, hr]

theorem Timer.requests_of_running_stop {p : FramePlace} (ht : t.timing = .running p) (hr : t.request = .stop) :
    t.runRequest = { t with request := .none } ∧ t.stopRequest = t ∧ t.runBit = false := by
  simp [Timer.runRequest, Timer.stopRequest, Timer.runBit, ht, hr]

/-- A read of CONTROL returns the RUN bit and zeros (R180). -/
theorem registerRead_control (s : State) : s.registerRead 0x01 = if s.timer.runBit then 1 else 0 := by
  change BitVec.setWidth 32 (BitVec.ofBool s.timer.runBit) = _
  cases s.timer.runBit <;> rfl

/-- A row of R5 on the part: with no take due, the requests write the Frame Timer alone, as the row says. -/
theorem exec_requests_of_row {a b : Timer} {run : Bool} (h : s.ready)
    (row : s.timer.runRequest = a ∧ s.timer.stopRequest = b ∧ s.timer.runBit = run) :
    exec .runRequest s = .next { s with timer := a } ∧ exec .stopRequest s = .next { s with timer := b }
      ∧ s.registerRead 0x01 = if run then 1 else 0 := by
  obtain ⟨hreset, hdue⟩ := h
  obtain ⟨rfl, rfl, rfl⟩ := row
  exact ⟨event_next_of_not_due hreset hdue, event_next_of_not_due hreset hdue, registerRead_control s⟩

/-! ## The frame start leaves the Frame Timer to `goTo` -/

@[simp] theorem timer_activeCountDown (s : State) (o : Owner) : (s.activeCountDown o).timer = s.timer := by
  cases o <;> rfl

@[simp] theorem timer_activeCountUp (s : State) (o : Owner) : (s.activeCountUp o).timer = s.timer := by
  cases o <;> rfl

@[simp] theorem timer_swap (s : State) (e : Epoch) : (s.swap e).timer = s.timer := by
  have K : Kept (fun u => u.timer = s.timer) := kept_timer _
  refine K.flag _ _ (K.complete _ (foldl_keeps (P := fun u => u.timer = s.timer) (fun c u hu => ?_) _ ?_))
  · simpa using hu
  · exact State.timer_updMap s _

@[simp] theorem timer_sealOpen (s : State) : s.sealOpen.timer = s.timer := rfl

/-- Neither a swap nor a seal, nor one after the other, touches the Frame Timer (R49, R50). -/
@[simp] theorem timer_epochsAtStart (s : State) : s.epochsAtStart.timer = s.timer := by
  unfold State.epochsAtStart
  cases hsealed : s.map.sealedEpoch with
  | none => cases hopen : s.map.openEpoch <;> simp [hopen, apply_ite State.timer]
  | some e =>
    by_cases heff : e.effective = s.timer.fn
    · cases hopen : (s.swap e).map.openEpoch <;> simp [heff, hopen, apply_ite State.timer]
    · cases hopen : s.map.openEpoch <;> simp [heff, hopen, apply_ite State.timer]

/-- Slot 0 of frame FN begins, and the Frame Timer keeps all else (R9). -/
@[simp] theorem timer_frameStart (s : State) :
    s.frameStart.timer = { s.timer with timing := .running (.slot 0) } := by
  simp [State.frameStart, State.goTo]

/-- The highway starts with the frame whose number it held while STOPPED (R6). -/
theorem timer_highwayStart (ht : s.timer.timing = .stopped) (hr : s.timer.request = .start) :
    s.highwayStart.timer = { s.timer with timing := .running (.slot 0), request := .none } := by
  simp [State.highwayStart, ht, hr]

theorem exec_highwayStart_keeps_fn (h : s.ready) (ht : s.timer.timing = .stopped) (hr : s.timer.request = .start) :
    ∃ u, exec .highwayStart s = .next u ∧ u.timer.fn = s.timer.fn := by
  obtain ⟨hreset, hdue⟩ := h
  exact ⟨s.highwayStart, event_next_of_not_due hreset hdue, by rw [timer_highwayStart ht hr]⟩

end Sys2Proof.Machine

namespace Sys2Proof.Proofs

open Sys2Proof.Machine

/-- Settles O5: the write of RUN, the start of the highway, and the four rows of R5, each by its row on the Frame Timer. -/
theorem runAndStopRequests : Obligations.RunAndStopRequests := by
  unfold Obligations.RunAndStopRequests
  refine ⟨fun s w => exec_registerWrite_run w s, fun s => exec_highwayStart_keeps_fn, fun s h => ⟨?_, ?_, ?_, ?_⟩⟩
  · intro ht hr
    exact exec_requests_of_row h (Timer.requests_of_stopped_none ht hr)
  · intro ht hr
    exact exec_requests_of_row h (Timer.requests_of_stopped_start ht hr)
  · intro p ht hr
    exact exec_requests_of_row h (Timer.requests_of_running_none ht hr)
  · intro p ht hr
    exact exec_requests_of_row h (Timer.requests_of_running_stop ht hr)

end Sys2Proof.Proofs
end

section
/-! R65 to R67: what an ANY, a BLOCK and an EVEN search choose, and when they fail (O35). -/

namespace Sys2Proof.Machine

variable {c : LengthCode} {avail : Nat → Bool} {n b x : Nat} {t : List Nat}

/-! ## The payload slots (R1) -/

/-- Every frame length leaves room for a run of 64 slots beside the overhead (R1, R66). -/
theorem LengthCode.slots_ge (c : LengthCode) : 256 ≤ c.slots := by
  cases c <;> decide

theorem LengthCode.mem_payload : x ∈ c.payload ↔ 64 ≤ x ∧ x < c.slots := by
  have hL := c.slots_ge
  rw [LengthCode.payload, List.mem_range'_1, Config.firstPayload]
  omega

theorem LengthCode.pairwise_payload (c : LengthCode) : c.payload.Pairwise (· < ·) :=
  List.pairwise_lt_range' 1

theorem LengthCode.range_slots (c : LengthCode) : List.range c.slots = List.range 64 ++ c.payload := by
  have hL : 64 + (c.slots - 64) = c.slots := Nat.add_sub_cancel' (le_trans (by decide) c.slots_ge)
  have happend := List.range'_append_1 (s := 0) (m := 64) (n := c.slots - 64)
  rw [hL, Nat.zero_add] at happend
  rw [List.range_eq_range', List.range_eq_range', ← happend]
  rfl

/-- The payload slots that pass a test are the slots from 64 on that pass it: none of the overhead slots does. -/
theorem LengthCode.filter_payload (c : LengthCode) (p : Nat → Bool) :
    c.payload.filter p = (List.range c.slots).filter (fun x => decide (64 ≤ x) && p x) := by
  have hoverhead : (List.range 64).filter (fun x => decide (64 ≤ x) && p x) = [] := by
    simp only [List.filter_eq_nil_iff, List.mem_range]
    intro x hx
    simp [hx]
  have hpayload : c.payload.filter (fun x => decide (64 ≤ x) && p x) = c.payload.filter p :=
    List.filter_congr fun x hx => by simp [(LengthCode.mem_payload.mp hx).1]
  rw [c.range_slots, List.filter_append, hoverhead, hpayload, List.nil_append]

/-! ## The lowest payload slots that pass a test, which an ANY search chooses (R65) -/

theorem LengthCode.mem_lowest {p : Nat → Bool} (hx : x ∈ (c.payload.filter p).take n) :
    64 ≤ x ∧ x < c.slots ∧ p x = true := by
  obtain ⟨hpay, hp⟩ := List.mem_filter.mp (List.mem_of_mem_take hx)
  obtain ⟨hlow, hhigh⟩ := LengthCode.mem_payload.mp hpay
  exact ⟨hlow, hhigh, hp⟩

theorem LengthCode.pairwise_filter_payload (c : LengthCode) (p : Nat → Bool) :
    (c.payload.filter p).Pairwise (· < ·) :=
  c.pairwise_payload.filter p

/-- A payload slot that passes and is not among the lowest taken lies above all of them: it is in the rest of the list. -/
theorem LengthCode.lowest_lt {p : Nat → Bool} {y : Nat} (hlow : 64 ≤ y) (hhigh : y < c.slots) (hp : p y = true)
    (hy : y ∉ (c.payload.filter p).take n) (hx : x ∈ (c.payload.filter p).take n) : x < y := by
  have hmem : y ∈ c.payload.filter p := List.mem_filter.mpr ⟨LengthCode.mem_payload.mpr ⟨hlow, hhigh⟩, hp⟩
  rw [← List.take_append_drop n (c.payload.filter p)] at hmem
  have hdrop : y ∈ (c.payload.filter p).drop n := (List.mem_append.mp hmem).resolve_left hy
  exact (c.pairwise_filter_payload p).rel_of_mem_take_of_mem_drop hx hdrop

/-- A search that answers its list only where that has `n` entries. -/
theorem some_of_length_eq_iff {l : List Nat} : (if l.length = n then some l else none) = some t ↔ l = t ∧ t.length = n := by
  rw [Option.ite_none_right_eq_some, Option.some.injEq, and_comm, and_congr_right_iff]
  rintro rfl
  rfl

theorem anySearch_eq_some_iff :
    anySearch c avail n = some t ↔ (c.payload.filter avail).take n = t ∧ t.length = n :=
  some_of_length_eq_iff

theorem anySearch_eq_none_iff : anySearch c avail n = none ↔ (c.payload.filter avail).length < n := by
  simp only [anySearch, ite_eq_right_iff, reduceCtorEq, imp_false, List.length_take]
  omega

/-! ## The run with the lowest start, which a BLOCK search chooses (R66) -/

theorem run_available_iff :
    (List.range' b n).all avail = true ↔ ∀ x, b ≤ x → x < b + n → avail x = true := by
  simp only [List.all_eq_true, List.mem_range'_1, and_imp]

theorem run_unavailable_iff :
    (List.range' b n).all avail = false ↔ ∃ x, b ≤ x ∧ x < b + n ∧ avail x = false := by
  simp only [List.all_eq_false, List.mem_range'_1, and_assoc, Bool.not_eq_true]

/-- The starts that a BLOCK search goes through are those from 64 to L−n. -/
theorem mem_starts (hn : n ≤ 64) :
    b ∈ List.range' Config.firstPayload (c.slots + 1 - n - Config.firstPayload) ↔ 64 ≤ b ∧ b ≤ c.slots - n := by
  have hL := c.slots_ge
  rw [List.mem_range'_1, Config.firstPayload]
  omega

theorem blockSearch_eq_some_iff (hn : n ≤ 64) :
    blockSearch c avail n = some t ↔ ∃ b, t = List.range' b n ∧ 64 ≤ b ∧ b ≤ c.slots - n
      ∧ (∀ x, b ≤ x → x < b + n → avail x = true)
      ∧ ∀ b', 64 ≤ b' → b' < b → ∃ x, b' ≤ x ∧ x < b' + n ∧ avail x = false := by
  simp only [blockSearch, Option.map_eq_some_iff, List.find?_range'_eq_some, mem_starts hn, run_available_iff,
    Bool.not_eq_true', run_unavailable_iff]
  constructor
  · rintro ⟨b, ⟨hrun, ⟨hlow, hhigh⟩, hfirst⟩, rfl⟩
    exact ⟨b, rfl, hlow, hhigh, hrun, hfirst⟩
  · rintro ⟨b, rfl, hlow, hhigh, hrun, hfirst⟩
    exact ⟨b, ⟨hrun, ⟨hlow, hhigh⟩, hfirst⟩, rfl⟩

/-! ## The lowest available slot of each window, which an EVEN search chooses (R67) -/

/-- `filterMap` keeps the length exactly where every answer is a value, and its list is then the list of those values. -/
theorem filterMap_eq_and_length_eq_iff {α β : Type} {f : α → Option β} {l : List α} {t : List β} :
    l.filterMap f = t ∧ t.length = l.length ↔ l.map f = t.map some := by
  induction l generalizing t with
  | nil => cases t <;> simp
  | cons a l ih =>
    cases hfa : f a with
    | none =>
      have hshort := List.length_filterMap_le f l
      rw [List.filterMap_cons_none hfa]
      constructor
      · rintro ⟨rfl, hlen⟩
        rw [List.length_cons] at hlen
        omega
      · intro h
        cases t <;> simp [hfa] at h
    | some b =>
      rw [List.filterMap_cons_some hfa]
      cases t with
      | nil => simp
      | cons d t => simp [hfa, ← ih, and_assoc]

/-- A list of n values is the list of the answers to 0 to n−1 where each of its entries is the answer to its place. -/
theorem map_range_eq_map_some_iff {α : Type} {f : Nat → Option α} {t : List α} :
    (List.range n).map f = t.map some ↔ t.length = n ∧ ∀ i, i < n → ∃ x, t[i]? = some x ∧ f i = some x := by
  constructor
  · intro h
    have hlen : n = t.length := by simpa using congrArg List.length h
    refine ⟨hlen.symm, fun i hi => ⟨t[i], List.getElem?_eq_getElem _, ?_⟩⟩
    have hi' := congrArg (·[i]?) h
    simpa [hi, ← hlen] using hi'
  · rintro ⟨rfl, h⟩
    refine List.ext_getElem (by simp) fun i hi _ => ?_
    obtain ⟨x, hx, hfx⟩ := h i (by simpa using hi)
    obtain ⟨_, rfl⟩ := List.getElem?_eq_some_iff.mp hx
    simpa using hfx

/-- The lowest available slot of window `i` of `n`. -/
def windowLowest (c : LengthCode) (avail : Nat → Bool) (n i : Nat) : Option Nat :=
  (List.range' (64 + i * ((c.slots - 64) / n)) ((c.slots - 64) / n)).find? avail

theorem windowLowest_eq_some_iff {i : Nat} :
    windowLowest c avail n i = some x ↔
      64 + i * ((c.slots - 64) / n) ≤ x ∧ x < 64 + (i + 1) * ((c.slots - 64) / n) ∧ avail x = true
        ∧ ∀ y, 64 + i * ((c.slots - 64) / n) ≤ y → y < x → avail y = false := by
  rw [windowLowest, List.find?_range'_eq_some, List.mem_range'_1, Nat.succ_mul, Nat.add_assoc]
  simp only [Bool.not_eq_true']
  tauto

/-- An EVEN search answers the lowest available slots of the n windows, where there are n. -/
theorem evenSearch_eq_some_iff_filterMap :
    evenSearch c avail n = some t ↔ (List.range n).filterMap (windowLowest c avail n) = t ∧ t.length = n :=
  some_of_length_eq_iff

theorem evenSearch_eq_some_iff :
    evenSearch c avail n = some t ↔ t.length = n ∧ ∀ i, i < n → ∃ x, t[i]? = some x
      ∧ 64 + i * ((c.slots - 64) / n) ≤ x ∧ x < 64 + (i + 1) * ((c.slots - 64) / n) ∧ avail x = true
      ∧ ∀ y, 64 + i * ((c.slots - 64) / n) ≤ y → y < x → avail y = false := by
  have hwindows : (List.range n).filterMap (windowLowest c avail n) = t ∧ t.length = n
      ↔ t.length = n ∧ ∀ i, i < n → ∃ x, t[i]? = some x ∧ windowLowest c avail n i = some x := by
    rw [← map_range_eq_map_some_iff, ← filterMap_eq_and_length_eq_iff, List.length_range]
  simp only [evenSearch_eq_some_iff_filterMap, hwindows, windowLowest_eq_some_iff]

end Sys2Proof.Machine

namespace Sys2Proof.Proofs

open Sys2Proof.Machine

/-- Settles O35: each search by what it answers, the ANY search's failure counted over the payload slots. -/
theorem patternSearches : Obligations.PatternSearches := by
  unfold Obligations.PatternSearches
  refine ⟨fun c avail n => ⟨fun t ht => ?_, ?_⟩, fun c avail n _ hn t => blockSearch_eq_some_iff hn,
    fun c avail n _ _ t => evenSearch_eq_some_iff⟩
  · obtain ⟨rfl, hlen⟩ := anySearch_eq_some_iff.mp ht
    exact ⟨hlen, (c.pairwise_filter_payload avail).take, fun x hx => LengthCode.mem_lowest hx,
      fun y hlow hhigh hy hnot x hx => LengthCode.lowest_lt hlow hhigh hy hnot hx⟩
  · rw [anySearch_eq_none_iff, c.filter_payload]

end Sys2Proof.Proofs
end

section
/-! R184 to R186: the interrupt flags, their fresh markers and enables, and IRQn (O54). -/

namespace Sys2Proof.Machine

variable {s : State} {x : Interrupts} {f g : Flag}

/-! ## The bits of the nine flags (R180) -/

theorem Flag.bit_lt (f : Flag) : f.bit < 9 := by
  cases f <;> decide

theorem Flag.bit_inj : f.bit = g.bit ↔ f = g := by
  cases f <;> cases g <;> simp [Flag.bit]

/-- The nine flags fill the nine bits. -/
theorem Flag.exists_bit_eq {i : Nat} (h : i < 9) : ∃ f : Flag, f.bit = i := by
  interval_cases i
  exacts [⟨.result, rfl⟩, ⟨.reqOverrun, rfl⟩, ⟨.station, rfl⟩, ⟨.noticeOverrun, rfl⟩, ⟨.intrusion, rfl⟩, ⟨.fault, rfl⟩,
    ⟨.configRefused, rfl⟩, ⟨.epoch, rfl⟩, ⟨.clash, rfl⟩]

theorem Flag.getLsbD_mask (f g : Flag) : f.mask.getLsbD g.bit = decide (g = f) := by
  change (BitVec.twoPow 9 f.bit).getLsbD g.bit = _
  simp [BitVec.getLsbD_twoPow, f.bit_lt, Flag.bit_inj, eq_comm]

/-! ## A cause, a read and a write, at each flag (R184, R185) -/

@[simp] theorem Interrupts.isSet_raise (x : Interrupts) (f g : Flag) :
    (x.raise f).isSet g = (x.isSet g || decide (g = f)) := by
  rw [← Flag.getLsbD_mask]
  exact BitVec.getLsbD_or

@[simp] theorem Interrupts.isFresh_raise (x : Interrupts) (f g : Flag) :
    (x.raise f).isFresh g = (x.isFresh g || decide (g = f)) := by
  rw [← Flag.getLsbD_mask]
  exact BitVec.getLsbD_or

@[simp] theorem Interrupts.enable_raise (x : Interrupts) (f : Flag) : (x.raise f).enable = x.enable := rfl

@[simp] theorem Interrupts.isSet_afterRead (x : Interrupts) (f : Flag) : x.afterRead.isSet f = x.isSet f := rfl

@[simp] theorem Interrupts.isFresh_afterRead (x : Interrupts) (f : Flag) : x.afterRead.isFresh f = false :=
  BitVec.getLsbD_zero

/-- A write clears the flags whose bit is 1 and whose marker is no (R185). -/
@[simp] theorem Interrupts.isSet_clear (x : Interrupts) (w : BitVec 9) (f : Flag) :
    (x.clear w).isSet f = (x.isSet f && !(w.getLsbD f.bit && !x.isFresh f)) := by
  simp [Interrupts.isSet, Interrupts.isFresh, Interrupts.clear, f.bit_lt]

@[simp] theorem Interrupts.isFresh_clear (x : Interrupts) (w : BitVec 9) (f : Flag) :
    (x.clear w).isFresh f = x.isFresh f := rfl

/-- Flags and enables share a set bit exactly where some flag and its enable are both 1 (R186). -/
theorem Interrupts.asserted_iff :
    x.asserted = true ↔ ∃ f : Flag, x.isSet f = true ∧ x.enable.getLsbD f.bit = true := by
  rw [Interrupts.asserted, decide_eq_true_iff]
  constructor
  · intro hne
    by_contra hnone
    refine hne (BitVec.eq_of_getLsbD_eq fun i hi => ?_)
    obtain ⟨f, rfl⟩ := Flag.exists_bit_eq hi
    have hf : ¬ (x.isSet f = true ∧ x.enable.getLsbD f.bit = true) := fun h => hnone ⟨f, h⟩
    simpa [Interrupts.isSet] using hf
  · rintro ⟨f, hset, henable⟩ hzero
    have hbit : (x.flags &&& x.enable).getLsbD f.bit = true := by
      rw [BitVec.getLsbD_and, henable, Bool.and_true]
      exact hset
    simp [hzero] at hbit

/-! ## A cause beside a write or a read, in either order (R185) -/

/-- A cause wins over a write, whichever comes first: its flag is 1 and its marker yes. -/
theorem Interrupts.raise_and_clear (x : Interrupts) (f : Flag) (w : BitVec 9) :
    ((x.raise f).clear w).isSet f = true ∧ ((x.clear w).raise f).isSet f = true
      ∧ ((x.raise f).clear w).isFresh f = true ∧ ((x.clear w).raise f).isFresh f = true := by
  simp

/-- A cause after a read survives the next write; one before the read is returned by it, and the write clears it. -/
theorem Interrupts.raise_and_afterRead (x : Interrupts) {w : BitVec 9} (hw : w.getLsbD f.bit = true) :
    ((x.afterRead.raise f).clear w).isSet f = true ∧ (x.raise f).afterRead.isSet f = true
      ∧ ((x.raise f).afterRead.clear w).isSet f = false := by
  simp [hw]

/-- A cause sets its flag and its marker, no other, and no enable (R184). -/
theorem Interrupts.raise_frame (x : Interrupts) (f g : Flag) :
    (x.raise f).isSet f = true ∧ (x.raise f).isFresh f = true
      ∧ (g ≠ f → (x.raise f).isSet g = x.isSet g ∧ (x.raise f).isFresh g = x.isFresh g)
      ∧ (x.raise f).enable = x.enable := by
  refine ⟨by simp, by simp, fun hne => ?_, rfl⟩
  simp [hne]

/-! ## The accesses of the interrupt registers -/

/-- An event of a ready part is its function on the state as it stands. -/
theorem event_of_ready {e : State → State} (h : s.ready) : s.event e = .next (e s) := by
  obtain ⟨hreset, hdue⟩ := h
  exact event_next_of_not_due hreset hdue

theorem readAccess_intFlags (s : State) : s.readAccess 0x0E =
    { s with readData := s.ints.flags.setWidth 32, ints := s.ints.afterRead } := rfl

theorem exec_intFlagsRead (s : State) : exec .intFlagsRead s = s.event (State.readAccess 0x0E) := rfl

theorem exec_intFlagsWrite (w : Word) (s : State) :
    exec (.intFlagsWrite w) s = s.event (State.writeIntFlags w) := rfl

theorem exec_intEnableWrite (w : Word) (s : State) :
    exec (.intEnableWrite w) s = s.event (State.writeIntEnable w) := rfl

theorem exec_intFlagsRead_of_ready (h : s.ready) : exec .intFlagsRead s =
    .next { s with readData := s.ints.flags.setWidth 32, ints := { s.ints with fresh := 0 } } := by
  rw [exec_intFlagsRead, event_of_ready h, readAccess_intFlags, Interrupts.afterRead]

theorem exec_intEnableWrite_of_ready (h : s.ready) (w : Word) :
    exec (.intEnableWrite w) s = .next { s with ints := { s.ints with enable := w.extractLsb' 0 9 } } := by
  rw [exec_intEnableWrite, event_of_ready h, State.writeIntEnable]

/-- Each flag has its own bit among the low nine of the word that a bus write carries (R180). -/
theorem Flag.getLsbD_extract (w : Word) (f : Flag) : (w.extractLsb' 0 9).getLsbD f.bit = w.getLsbD f.bit := by
  simp [f.bit_lt]

theorem exec_intFlagsWrite_clears (h : s.ready) (w : Word) :
    ∃ t, exec (.intFlagsWrite w) s = .next t ∧ t.ints.fresh = s.ints.fresh
      ∧ (∀ f : Flag, t.ints.isSet f = (s.ints.isSet f && !(w.getLsbD f.bit && !s.ints.isFresh f)))
      ∧ t = { s with ints := { s.ints with flags := t.ints.flags } } := by
  rw [exec_intFlagsWrite, event_of_ready h]
  refine ⟨s.writeIntFlags w, rfl, rfl, fun f => ?_, rfl⟩
  rw [State.writeIntFlags, Interrupts.isSet_clear, Flag.getLsbD_extract]

/-! ## IRQn (R186) -/

theorem irqn_of_inReset (h : s.inReset = true) : s.irqn = true := by
  simp [State.irqn, h]

theorem irqn_low_iff (h : s.ready) :
    s.irqn = false ↔ ∃ f : Flag, s.ints.isSet f = true ∧ s.ints.enable.getLsbD f.bit = true := by
  obtain ⟨hreset, hdue⟩ := h
  rw [irqn_of_not_due hreset hdue, Bool.not_eq_false', Interrupts.asserted_iff]

theorem irqn_reset : State.reset.irqn = true :=
  irqn_of_not_due rfl rfl

theorem exec_deviceReset_releases_irqn {t : State} (h : exec .deviceReset s = .next t) :
    t.irqn = true ∧ t.ints.enable = 0 := by
  injection h with h
  subst h
  exact ⟨irqn_of_inReset rfl, rfl⟩

end Sys2Proof.Machine

namespace Sys2Proof.Proofs

open Sys2Proof.Machine

/-- Settles O54: a cause, a read and a write by what each does to the bit of one flag, and IRQn by the bit that a flag
and its enable share. -/
theorem interruptFlags : Obligations.InterruptFlags := by
  unfold Obligations.InterruptFlags
  refine ⟨⟨fun s => exec_intFlagsRead_of_ready, fun s w h => exec_intFlagsWrite_clears h w, fun x f w hw => ?_⟩,
    fun s w h => exec_intEnableWrite_of_ready h w, fun s => irqn_of_inReset, fun s => irqn_low_iff,
    Interrupts.raise_frame, ⟨irqn_reset, rfl⟩, fun s t => exec_deviceReset_releases_irqn⟩
  obtain ⟨hfirst, hlast, hfreshFirst, hfreshLast⟩ := x.raise_and_clear f w
  exact ⟨hfirst, hlast, hfreshFirst, hfreshLast, x.raise_and_afterRead hw⟩

end Sys2Proof.Proofs
end

section
/-! The canonical form of every table (log 21) and PLAN following ACTIVE (R35, R40), kept by every step: each is shown of
every named write, and `step_keeps` carries it to a step (O56, O57). -/

namespace Sys2Proof.Machine

/-! ## Every table stays canonical -/

theorem changesWf_none : changesWf none := fun _ h => nomatch h

theorem changesWf_openIfNone {s : State} (h : changesWf s.map.openEpoch) : changesWf s.openIfNone.map.openEpoch := by
  obtain ⟨e, he, hold | ⟨-, hnew⟩⟩ := State.openEpoch_openIfNone s
  · rw [he, ← hold]
    exact h
  · rw [he]
    rintro _ ⟨⟩
    rw [hnew]
    exact Table.wf_empty _

/-- The OPEN list stays canonical as a change is merged into it (R42). -/
theorem changesWf_recordIn {m : SlotMap} (h : changesWf m.openEpoch) (n : Nat) (x y : Owner) :
    changesWf (m.recordIn n x y).openEpoch := by
  intro e he
  obtain ⟨o, ho, rfl⟩ := Option.map_eq_some_iff.1 he
  exact mergeChange_wf (h o ho) n x y

theorem canonical_reset : State.reset.canonical :=
  ⟨⟨Table.wf_empty _, Table.wf_empty _, Table.wf_empty _, Table.wf_empty _⟩,
    ⟨Table.wf_empty _, Table.wf_empty _, Table.wf_empty _⟩, changesWf_none, changesWf_none⟩

theorem keptByAll_canonical : KeptByAll State.canonical where
  grant i _ _ := fun ⟨⟨hg, hrest⟩, hmaps⟩ => ⟨⟨Table.wf_put hg i _, hrest⟩, hmaps⟩
  station a _ _ := fun ⟨⟨hg, hs, hrest⟩, hmaps⟩ => ⟨⟨hg, Table.wf_put hs a _, hrest⟩, hmaps⟩
  ask a _ _ := fun ⟨⟨hg, hs, ha, hm⟩, hmaps⟩ => ⟨⟨hg, hs, Table.wf_put ha a _, hm⟩, hmaps⟩
  mailbox a _ _ _ := fun ⟨⟨hg, hs, ha, hm⟩, hmaps⟩ => ⟨⟨hg, hs, ha, Table.wf_put hm a _⟩, hmaps⟩
  flag _ _ h := h
  freeQueue _ _ h := h
  askQueue _ _ _ h := h
  record n y s _ := by
    rintro ⟨⟨hg, hs, ha, hm⟩, ⟨hactive, hplan, htaint⟩, hopen, hsealed⟩
    refine ⟨⟨?_, ?_, ?_, ?_⟩, ⟨?_, ?_, ?_⟩, changesWf_recordIn (changesWf_openIfNone hopen) _ _ _, ?_⟩
    · simpa using hg
    · simpa using hs
    · simpa using ha
    · simpa using hm
    · simpa [SlotMap.recordIn] using hactive
    · exact Table.wf_put (by simpa using hplan) n y
    · simpa [SlotMap.recordIn] using htaint
    · simpa [SlotMap.recordIn] using hsealed
  accept a _ _ := fun ⟨⟨hg, hs, ha, hm⟩, hmaps⟩ => ⟨⟨hg, hs, Table.wf_put ha a _, hm⟩, hmaps⟩
  counter _ _ h := h
  engine _ _ h := h
  port _ _ _ h := h
  downlink _ _ _ h := h
  intrusions _ _ h := h
  taint _ _ ht := fun ⟨hrecords, ⟨hactive, hplan, htaint⟩, hlists⟩ => ⟨hrecords, ⟨hactive, hplan, ht htaint⟩, hlists⟩
  swapMap _ _ _ := fun ⟨hrecords, ⟨hactive, hplan⟩, hopen, _⟩ =>
    ⟨hrecords, ⟨applied_wf _ hactive, hplan⟩, hopen, changesWf_none⟩
  sealOpen _ _ := fun ⟨hrecords, hmaps, hopen, _⟩ => ⟨hrecords, hmaps, changesWf_none, hopen⟩
  countDown _ := fun ⟨⟨hg, hs, ha, hm⟩, hmaps⟩ => ⟨⟨hg, hs, ha, Table.wf_mapValues hm _⟩, hmaps⟩
  timer _ _ h := h
  config _ _ _ h := h
  ints _ _ h := h
  readData _ _ h := h
  fromReset _ _ _ _ := canonical_reset

/-! ## PLAN follows ACTIVE -/

/-- Opening an epoch adds no change (R39). -/
theorem changeAt_openIfNone (s : State) (n : Nat) :
    changeAt s.openIfNone.map.openEpoch n = changeAt s.map.openEpoch n := by
  obtain ⟨e, he, hold | ⟨hnone, hnew⟩⟩ := State.openEpoch_openIfNone s
  · rw [he, hold]
  · rw [he, hnone]
    simp [changeAt, hnew]

theorem followsAt_openIfNone (s : State) (n : Nat) : s.openIfNone.map.followsAt n ↔ s.map.followsAt n := by
  simp only [SlotMap.followsAt, SlotMap.baseAt, changeAt_openIfNone, State.sealedEpoch_openIfNone,
    State.active_openIfNone, State.plan_openIfNone]

theorem SlotMap.follows_openIfNone {s : State} (h : s.map.follows) : s.openIfNone.map.follows := by
  obtain ⟨hat, hopen, hsealed⟩ := h
  exact ⟨fun n => (followsAt_openIfNone s n).2 (hat n), changesWf_openIfNone hopen, by simpa using hsealed⟩

/-- The change that the OPEN list holds once (n: x→y) is recorded (R42). -/
theorem changeAt_recordIn {m : SlotMap} (h : m.openEpoch.isSome = true) (n : Nat) (x y : Owner) (j : Nat) :
    changeAt (m.recordIn n x y).openEpoch j =
      if j = n then mergedChange (changeAt m.openEpoch n) x y else changeAt m.openEpoch j := by
  obtain ⟨e, he⟩ := Option.isSome_iff_exists.1 h
  simp only [changeAt, SlotMap.recordIn, he, Option.map_some, Option.bind_some, mergeChange_get, mergedChange]
  split
  · cases e.changes.get none n <;> rfl
  · rfl

/-- A change recorded from the slot's PLAN owner leaves PLAN the lists applied to ACTIVE (R40, R42). -/
theorem SlotMap.followsAt_recordIn {m : SlotMap} (ho : m.openEpoch.isSome = true) {n : Nat} {y : Owner}
    (hne : m.plan.get none n ≠ y) {j : Nat} (h : m.followsAt j) : (m.recordIn n (m.plan.get none n) y).followsAt j := by
  obtain ⟨hsealed, hchange, hnone⟩ := h
  have hbase : (m.recordIn n (m.plan.get none n) y).baseAt j = m.baseAt j := rfl
  have hplan : (m.recordIn n (m.plan.get none n) y).plan.get none j = if j = n then y else m.plan.get none j :=
    Table.get_put _ _ _ _ _
  refine ⟨hsealed, ?_⟩
  rw [hbase, hplan, changeAt_recordIn ho]
  by_cases hj : j = n
  · subst hj
    simp only [if_true]
    cases hc : changeAt m.openEpoch j with
    | none =>
      refine ⟨?_, nofun⟩
      rintro _ ⟨⟩
      exact ⟨hnone hc, rfl, hne⟩
    | some c =>
      obtain ⟨hfrom, -, -⟩ := hchange c hc
      by_cases hy : c.fromOwner = y
      · simpa [mergedChange, hy] using hy.symm.trans hfrom
      · simpa [mergedChange, hy] using hfrom
  · simp only [if_neg hj]
    exact ⟨hchange, hnone⟩

theorem SlotMap.follows_recordIn {m : SlotMap} (ho : m.openEpoch.isSome = true) {n : Nat} {y : Owner}
    (hne : m.plan.get none n ≠ y) (h : m.follows) : (m.recordIn n (m.plan.get none n) y).follows := by
  obtain ⟨hat, hopen, hsealed⟩ := h
  exact ⟨fun j => followsAt_recordIn ho hne (hat j), changesWf_recordIn hopen _ _ _, hsealed⟩

theorem isSome_openEpoch_openIfNone (s : State) : s.openIfNone.map.openEpoch.isSome = true := by
  obtain ⟨e, he, -⟩ := State.openEpoch_openIfNone s
  simp [he]

/-- A change recorded keeps the agreement of the maps and the lists (R39, R42). -/
theorem SlotMap.follows_record {s : State} {n : Nat} {y : Owner} (hne : s.planAt n ≠ y) (h : s.map.follows) :
    (s.openIfNone.map.recordIn n (s.planAt n) y).follows := by
  have hplan : s.planAt n = s.openIfNone.map.plan.get none n := by simp [State.planAt]
  rw [hplan] at hne ⊢
  exact follows_recordIn (isSome_openEpoch_openIfNone s) hne (follows_openIfNone h)

/-- ACTIVE after a swap is what PLAN was reckoned from before it (R40, R49). -/
theorem SlotMap.active_swapIn {m : SlotMap} {e : Epoch} (he : m.sealedEpoch = some e) (hw : e.changes.wf none = true)
    (n : Nat) : (m.swapIn e).active.get none n = m.baseAt n := by
  have hlist : changeAt m.sealedEpoch n = e.changes.get none n := by
    rw [he]
    rfl
  have hbase : m.baseAt n = ((e.changes.get none n).map Change.toOwner).getD (m.active.get none n) := by
    unfold SlotMap.baseAt
    rw [hlist]
    cases e.changes.get none n <;> rfl
  have happlied : (m.swapIn e).active.get none n = ((e.changes.get none n).map Change.toOwner).getD (m.active.get none n) := by
    refine (applied_get hw _ n).trans ?_
    cases e.changes.get none n <;> rfl
  rw [happlied, hbase]

theorem SlotMap.follows_swapIn {m : SlotMap} {e : Epoch} (he : m.sealedEpoch = some e) (h : m.follows) :
    (m.swapIn e).follows := by
  obtain ⟨hat, hopen, hsealed⟩ := h
  have hbase : ∀ n, (m.swapIn e).baseAt n = m.baseAt n := fun n => active_swapIn he (hsealed e he) n
  refine ⟨fun n => ⟨nofun, ?_⟩, hopen, changesWf_none⟩
  rw [hbase]
  exact (hat n).2

/-- A seal moves the OPEN list under the SEALED name, where none was (R40, R50). -/
theorem SlotMap.follows_sealed {m : SlotMap} (hnone : m.sealedEpoch = none) (h : m.follows) :
    SlotMap.follows { m with sealedEpoch := m.openEpoch, openEpoch := none } := by
  obtain ⟨hat, hopen, -⟩ := h
  refine ⟨fun n => ?_, changesWf_none, hopen⟩
  obtain ⟨-, hchange, hplan⟩ := hat n
  have hbase : m.baseAt n = m.active.get none n := by simp [SlotMap.baseAt, changeAt, hnone]
  rw [hbase] at hchange hplan
  refine ⟨fun c hc => (hchange c hc).1, nofun, fun _ => ?_⟩
  show m.plan.get none n = match changeAt m.openEpoch n with
    | some c => c.toOwner
    | none => m.active.get none n
  cases hc : changeAt m.openEpoch n with
  | none => exact hplan hc
  | some c => exact (hchange c hc).2.1.symm

theorem SlotMap.follows_reset : State.reset.map.follows :=
  ⟨fun _ => ⟨nofun, nofun, fun _ => rfl⟩, changesWf_none, changesWf_none⟩

theorem keptByAll_follows : KeptByAll (fun s => s.map.follows) where
  grant _ _ _ h := h
  station _ _ _ h := h
  ask _ _ _ h := h
  mailbox _ _ _ _ h := h
  flag _ _ h := h
  freeQueue _ _ h := h
  askQueue _ _ _ h := h
  record _ _ _ hne h := SlotMap.follows_record hne h
  accept _ _ _ h := h
  counter _ _ h := h
  engine _ _ h := h
  port _ _ _ h := h
  downlink _ _ _ h := h
  intrusions _ _ h := h
  taint _ _ _ h := h
  swapMap _ _ he h := SlotMap.follows_swapIn he h
  sealOpen _ hnone h := SlotMap.follows_sealed hnone h
  countDown _ h := h
  timer _ _ h := h
  config _ _ _ h := h
  ints _ _ h := h
  readData _ _ h := h
  fromReset _ _ _ _ := SlotMap.follows_reset

end Sys2Proof.Machine

namespace Sys2Proof.Proofs

open Sys2Proof.Machine

/-- Settles O56: every write of a table keeps its form, and every step is made of such writes. -/
theorem tablesStayCanonical : Obligations.TablesStayCanonical :=
  fun _ _ h ht => step_keeps keptByAll_canonical (fun _ _ h => h) ht h

/-- Settles O57: the recording of a change, the swap and the seal keep the maps and lists in agreement, and nothing else
writes them. -/
theorem planFollowsActive : Obligations.PlanFollowsActive :=
  fun _ _ h ht => step_keeps keptByAll_follows (fun _ _ h => h) ht h

end Sys2Proof.Proofs
end

section
/-! What an event can do, said once for the properties that a single write may break and a whole operation keeps (the books
of R19 to R27 and R115, the placement in flight, the Frame Timer, the downlink words): a property that each operation keeps
where its checks hold (`BlockKept`, `PartKept`) is kept by every step (`step_keeps_part`). -/

namespace Sys2Proof.Machine

/-! ## The fields that these properties leave aside -/

/-- `t` has the records, the Free Record Queue, the stations, the maps and lists, the engine, the Frame Timer and the
downlink words of `s`. -/
def SameBooks (s t : State) : Prop :=
  t.grants = s.grants ∧ t.freeQueue = s.freeQueue ∧ t.stations = s.stations ∧ t.engine = s.engine ∧ t.timer = s.timer
    ∧ t.downlink = s.downlink ∧ t.map = { s.map with taint := t.map.taint }

theorem SameBooks.refl (s : State) : SameBooks s s := ⟨rfl, rfl, rfl, rfl, rfl, rfl, rfl⟩

theorem SameBooks.trans {s t u : State} (h : SameBooks s t) (k : SameBooks t u) : SameBooks s u := by
  obtain ⟨h1, h2, h3, h4, h5, h6, h7⟩ := h
  obtain ⟨k1, k2, k3, k4, k5, k6, k7⟩ := k
  refine ⟨k1.trans h1, k2.trans h2, k3.trans h3, k4.trans h4, k5.trans h5, k6.trans h6, ?_⟩
  rw [k7, h7]

theorem sameBooks_updMailbox (a : Nat) (f : Mailbox → Mailbox) (s : State) : SameBooks s (s.updMailbox a f) :=
  ⟨rfl, rfl, rfl, rfl, rfl, rfl, rfl⟩

theorem sameBooks_updAsk (a : Nat) (f : AskRecord → AskRecord) (s : State) : SameBooks s (s.updAsk a f) :=
  ⟨rfl, rfl, rfl, rfl, rfl, rfl, rfl⟩

theorem sameBooks_raise (f : Flag) (s : State) : SameBooks s (s.raise f) := ⟨rfl, rfl, rfl, rfl, rfl, rfl, rfl⟩

theorem sameBooks_updPort (f : Port → Port) (s : State) : SameBooks s (s.updPort f) := ⟨rfl, rfl, rfl, rfl, rfl, rfl, rfl⟩

theorem sameBooks_handNotice (a : Nat) (n : Notice) (s : State) : SameBooks s (s.handNotice a n) := by
  unfold State.handNotice
  split
  · split
    · exact (sameBooks_updMailbox _ _ _).trans (sameBooks_raise _ _)
    · exact sameBooks_updMailbox _ _ _
  · exact .refl s

theorem sameBooks_noticeOwner (i : Nat) (n : Notice) (s : State) : SameBooks s (s.noticeOwner i n) := by
  unfold State.noticeOwner
  split
  · exact .refl s
  · exact sameBooks_handNotice _ _ _

theorem sameBooks_noticeRevoked (why : Option RevokeReason) (o : Option Nat) (h : Handle) (i : Nat) (s : State) :
    SameBooks s (s.noticeRevoked why o h i) := by
  unfold State.noticeRevoked
  split
  · split
    · exact .refl s
    · exact sameBooks_handNotice _ _ _
  · exact .refl s

theorem sameBooks_offerLeft (a : Nat) (s : State) : SameBooks s (s.offerLeft a) := by
  unfold State.offerLeft
  split
  · exact sameBooks_updMailbox _ _ _
  · exact .refl s

theorem sameBooks_dropWaitingAsk (a : Nat) (s : State) : SameBooks s (s.dropWaitingAsk a) := by
  unfold State.dropWaitingAsk
  split
  · exact ⟨rfl, rfl, rfl, rfl, rfl, rfl, rfl⟩
  · exact .refl s
  · exact .refl s

theorem sameBooks_answerAsk (a : Nat) (q : BitVec 4) (n : Notice) (s : State) : SameBooks s (s.answerAsk a q n) :=
  (sameBooks_handNotice _ _ _).trans (sameBooks_updAsk _ _ _)

theorem SameBooks.endPlacement {s t : State} (h : SameBooks s t) : SameBooks s.endPlacement t.endPlacement := by
  obtain ⟨h1, h2, h3, h4, h5, h6, h7⟩ := h
  exact ⟨h1, h2, h3, by simp [State.endPlacement, h4], h5, h6, h7⟩

theorem SameBooks.grant_eq {s t : State} (h : SameBooks s t) (i : Nat) : t.grant i = s.grant i := State.grant_congr h.1 i

theorem SameBooks.station_eq {s t : State} (h : SameBooks s t) (a : Nat) : t.station a = s.station a :=
  State.station_congr h.2.2.1 a

/-! ## The checks under which an operation is made -/

/-- MEMBER, QUIET or LEAVING: the states in which a station may own records (R108). -/
def StationState.mayOwn : StationState → Bool
  | .member | .quiet | .leaving => true
  | .absent | .joining => false

/-- Station `a` may go to this state: it owns no record, or may go on owning. -/
def State.mayMove (a : Nat) (st : StationState) (s : State) : Prop :=
  (s.station a).state.mayOwn = true → st.mayOwn = true ∨ (s.station a).held = 0

/-- A write of a record that leaves its place in the maps, its state, its owner and its generation. -/
def Grant.KeepsPlace (f : Grant → Grant) : Prop :=
  ∀ g, (f g).state = g.state ∧ (f g).owner = g.owner ∧ (f g).planCount = g.planCount
    ∧ (f g).activeCount = g.activeCount ∧ (f g).generation = g.generation

/-- Record `i` is in use: not FREE, or named by ACTIVE. -/
def State.inUse (i : Nat) (s : State) : Prop := (s.grant i).state ≠ .free ∨ ∃ n, s.activeAt n = some i

/-- A write of a station record that leaves its state and its counts. -/
def Station.KeepsCounts (f : Station → Station) : Prop :=
  ∀ r, (f r).state = r.state ∧ (f r).held = r.held ∧ (f r).planned = r.planned

/-- The checks that a take for a new grant has passed (R60), for a reservation that writes `g` (R18). -/
structure State.Placeable (k : Nat → PlacementKind) (g : Grant) (a : Nat) (s : State) : Prop where
  member : (s.station a).state.inMembership = true
  room : (s.station a).held < Config.grantLimit
  record : s.freeQueue ≠ []
  count : 1 ≤ g.requested ∧ g.requested ≤ 64
  unplaced : g.planCount = 0 ∧ g.activeCount = 0
  kind : (∃ l, k = fun i => .create i l) ∨ ∃ q l, k = fun i => .ask i q l

/-- The placement of a RESIZE that has passed the checks (R63, R68). -/
def State.resizeContext (h : Handle) (n : Nat) (s : State) : Context :=
  { kind := .resize h, station := (s.grant h.index.toNat).owner.getD 0, newCount := n
    outcome := s.search h.index.toNat ((s.grant h.index.toNat).owner.getD 0) (s.grant h.index.toNat).cls
      (fun avail => resizeSearch (s.grant h.index.toNat).pattern s.timer.code avail (s.planSlots h.index.toNat) n) }

/-- The record that a placement is for. -/
def PlacementKind.subject : PlacementKind → Nat
  | .create i _ => i
  | .resize h => h.index.toNat
  | .ask i _ _ => i

/-- Whether a placement is for a new grant. -/
def PlacementKind.isNew : PlacementKind → Bool
  | .create _ _ | .ask _ _ _ => true
  | .resize _ => false

/-- The checks of a commit (R76, R80): the placement in flight has found these slots, and its grant stands. -/
structure State.Committing (c : Context) (t : List Nat) (v : List Handle) (s : State) : Prop where
  flight : s.engine.context = some c
  found : c.outcome = .chosen t v
  stands : c.kind.retiredIn s = false

/-! ## The operations -/

/-- A property that the operations of the blocks keep, each where its checks hold: everything but the Frame Timer's own
moves, a reset and a FRAME_LENGTH write. -/
structure BlockKept (P : State → Prop) : Prop where
  side : ∀ s t, SameBooks s t → P s → P t
  station : ∀ a f s, Station.KeepsCounts f → P s → P (s.updStation a f)
  move : ∀ a st s, s.mayMove a st → P s → P (s.moveStation a st)
  grant : ∀ i f s, s.inUse i → Grant.KeepsPlace f → P s → P (s.updGrant i f)
  retire : ∀ l why s, P s → P (s.retire l why).1
  place : ∀ k g a s, s.Placeable k g a → P s → P (s.placeNew k g a)
  beginResize : ∀ h n s, firstFailure (s.resizeChecks h n) = none → P s → P (s.begin (s.resizeContext h n))
  returned : ∀ c s, s.engine.context = some c → c.kind.isNew = true → P s → P (s.returnRecord c.kind.subject).endPlacement
  committed : ∀ c t v f s, s.Committing c t v → Grant.KeepsPlace f → P s →
    P (s.commitClaim c.kind.subject t v f).endPlacement
  noteKind : ∀ k s, P s → P (s.noteKind k)
  endPlacement : ∀ s, P s → P s.endPlacement

/-- The same of the whole part. -/
structure PartKept (P : State → Prop) : Prop extends BlockKept P where
  timer : ∀ f s, (s.timer.legal → (f s.timer).legal) → (f s.timer).code = s.timer.code → P s → P (s.updTimer f)
  epochs : ∀ s, P s → P s.epochsAtStart
  arbitrate : ∀ s, P s → P s.arbitrate
  length : ∀ c s, s.timer.timing = .stopped → s.allFree = true → s.map.noEpoch = true → P s →
    P (s.updTimer (fun t => { t with code := c }))
  fromReset : ∀ b c s, P s → P
    { State.reset with inReset := b, timer := { State.reset.timer with code := c }, pending := s.pending }

variable {P : State → Prop} {s : State}

namespace BlockKept

/-! ## Notices and the Roster -/

theorem handNotice (K : BlockKept P) (a : Nat) (n : Notice) (h : P s) : P (s.handNotice a n) :=
  K.side _ _ (sameBooks_handNotice _ _ _) h

theorem updMailbox (K : BlockKept P) (a : Nat) (f : Mailbox → Mailbox) (h : P s) : P (s.updMailbox a f) :=
  K.side _ _ (sameBooks_updMailbox _ _ _) h

theorem updAsk (K : BlockKept P) (a : Nat) (f : AskRecord → AskRecord) (h : P s) : P (s.updAsk a f) :=
  K.side _ _ (sameBooks_updAsk _ _ _) h

theorem raise (K : BlockKept P) (f : Flag) (h : P s) : P (s.raise f) := K.side _ _ (sameBooks_raise _ _) h

theorem updPort (K : BlockKept P) (f : Port → Port) (h : P s) : P (s.updPort f) := K.side _ _ (sameBooks_updPort _ _) h

theorem enterAbsent (K : BlockKept P) (a : Nat) (hm : s.mayMove a .absent) (h : P s) : P (s.enterAbsent a) := by
  refine K.move _ _ _ ?_ (K.station _ _ _ (fun _ => ⟨rfl, rfl, rfl⟩) (K.updMailbox _ _ h))
  unfold State.mayMove at *
  rw [State.station_updStation_same]
  exact hm

theorem departIfDone (K : BlockKept P) (a : Nat) (h : P s) : P (s.departIfDone a) := by
  unfold State.departIfDone
  split
  · rename_i hl
    exact K.enterAbsent _ (fun _ => .inr hl.2) h
  · exact h

theorem failJoin (K : BlockKept P) (a : Nat) (why : LeaveReason) (hj : (s.station a).state = .joining) (h : P s) :
    P (s.failJoin a why) := by
  refine K.enterAbsent _ ?_ (K.station _ _ _ (fun _ => ⟨rfl, rfl, rfl⟩) h)
  unfold State.mayMove
  rw [State.station_updStation_same, hj]
  nofun

theorem takeAck (K : BlockKept P) (a : Nat) (ack : BitVec 4) (h : P s) : P (s.takeAck a ack) := by
  unfold State.takeAck
  split
  · dsimp only
    split
    · exact K.move _ _ _ (fun _ => .inl rfl) (K.updMailbox _ _ h)
    · exact K.updMailbox _ _ h
  · exact h

/-! ## Claims -/

theorem enterLeaving (K : BlockKept P) (a : Nat) (why : LeaveReason) (h : P s) : P (s.enterLeaving a why) := by
  unfold State.enterLeaving
  refine K.departIfDone _ (K.retire _ _ _ (K.side _ _ (sameBooks_dropWaitingAsk _ _) (K.updMailbox _ _ ?_)))
  exact K.move _ _ _ (fun _ => .inl rfl) (K.station _ _ _ (fun _ => ⟨rfl, rfl, rfl⟩) h)

theorem evictStation (K : BlockKept P) (a : Nat) (h : P s) : P (s.evictStation a) := by
  unfold State.evictStation
  split
  · exact K.enterLeaving _ _ h
  · exact K.enterLeaving _ _ h
  · exact K.failJoin _ _ ‹_› h
  · exact h
  · exact h

/-! ## Leases -/

theorem noticeOwner (K : BlockKept P) (i : Nat) (n : Notice) (h : P s) : P (s.noticeOwner i n) :=
  K.side _ _ (sameBooks_noticeOwner _ _ _) h

theorem renewGrant (K : BlockKept P) (i : Nat) (r : Option (BitVec 16)) (hi : (s.grant i).state ≠ .free) (h : P s) :
    P (s.renewGrant i r) :=
  K.noticeOwner _ _ (K.grant _ _ _ (.inl hi) (fun _ => ⟨rfl, rfl, rfl, rfl, rfl⟩) h)

theorem keepsPlace_countedDown : Grant.KeepsPlace Grant.countedDown := by
  intro g
  unfold Grant.countedDown
  split <;> exact ⟨rfl, rfl, rfl, rfl, rfl⟩

theorem tickLease (K : BlockKept P) (i : Nat) (hi : (s.grant i).state ≠ .free) (h : P s) : P (s.tickLease i) := by
  have hc : P (s.updGrant i Grant.countedDown) := K.grant _ _ _ (.inl hi) keepsPlace_countedDown h
  unfold State.tickLease
  dsimp only
  split
  · refine K.grant _ _ _ (.inl ?_) (fun _ => ⟨rfl, rfl, rfl, rfl, rfl⟩) (K.noticeOwner _ _ hc)
    rw [(sameBooks_noticeOwner _ _ _).grant_eq, State.grant_updGrant_same, (keepsPlace_countedDown _).1]
    exact hi
  · exact hc

end BlockKept

/-- The lease's part of a tick leaves the record's state. -/
theorem state_tickLease (s : State) (i : Nat) : ((s.tickLease i).grant i).state = (s.grant i).state := by
  have hc : (s.grant i).countedDown.state = (s.grant i).state := (BlockKept.keepsPlace_countedDown _).1
  unfold State.tickLease
  dsimp only
  split
  · rw [State.grant_updGrant_same, (sameBooks_noticeOwner _ _ _).grant_eq, State.grant_updGrant_same]
    exact hc
  · rw [State.grant_updGrant_same]
    exact hc

theorem GrantState.ne_free_of_counted {x : GrantState} (h : x.counted = true) : x ≠ .free := by
  rintro rfl
  exact absurd h (by decide)

theorem ne_free_of_handlePasses {h : Handle} (k : s.handlePasses h = true) : (s.grant h.index.toNat).state ≠ .free := by
  simp only [State.handlePasses, Bool.and_eq_true, bne_iff_ne, ne_eq] at k
  exact k.1.1.2

/-- A MEMBER's ack leaves its station record as it is: only a JOINING station's can move it (R103, R141). -/
theorem station_takeAck_of_member {a : Nat} (h : (s.station a).state = .member) (ack : BitVec 4) (b : Nat) :
    (s.takeAck a ack).station b = s.station b := by
  unfold State.takeAck
  split
  · simp only [h, reduceCtorEq, and_false, if_false]
    rfl
  · rfl

namespace BlockKept

theorem tickIdle (K : BlockKept P) (i : Nat) (hi : (s.grant i).state ≠ .free) (h : P s) : P (s.tickIdle i) := by
  have hc : P (s.updGrant i Grant.idled) := K.grant _ _ _ (.inl hi) (fun _ => ⟨rfl, rfl, rfl, rfl, rfl⟩) h
  unfold State.tickIdle
  dsimp only
  split
  · exact K.retire _ _ _ hc
  · exact hc

theorem tickRecord (K : BlockKept P) (i : Nat) (h : P s) : P (s.tickRecord i) := by
  unfold State.tickRecord
  split
  · rename_i hc
    have hi : (s.grant i).state ≠ .free := GrantState.ne_free_of_counted hc
    dsimp only
    split
    · exact K.retire _ _ _ (K.tickLease _ hi h)
    · exact K.tickIdle _ (by rw [state_tickLease]; exact hi) (K.tickLease _ hi h)
  · exact h

theorem tick (K : BlockKept P) (h : P s) : P s.tick := foldl_keeps (fun _ _ h => K.tickRecord _ h) _ h

theorem tickIfDue (K : BlockKept P) (h : P s) : P s.tickIfDue := by
  unfold State.tickIfDue
  split
  · exact K.tick h
  · exact h

theorem renewFor (K : BlockKept P) (a : Nat) (hd : Handle) (c : BitVec 4) (h : P s) : P (s.renewFor a hd c) := by
  unfold State.renewFor
  split
  · rename_i ho
    split
    · exact K.handNotice _ _ h
    · exact K.renewGrant _ _ (ne_free_of_handlePasses (Bool.and_eq_true_iff.1 ho).1) h
  · exact K.handNotice _ _ h

theorem dropFor (K : BlockKept P) (a : Nat) (hd : Handle) (h : P s) : P (s.dropFor a hd) := by
  unfold State.dropFor
  split
  · exact K.retire _ _ _ h
  · exact K.handNotice _ _ h

/-! ## Requests performed at the take -/

theorem clearSuspension (K : BlockKept P) (e : Quad) (h : P s) : P (s.clearSuspension e) := by
  unfold State.clearSuspension
  split
  · exact K.station _ _ _ (fun _ => ⟨rfl, rfl, rfl⟩) h
  · exact h

theorem performRelease (K : BlockKept P) (hd : Handle) (h : P s) : P (s.performRelease hd).1 := by
  unfold State.performRelease
  split
  · split
    · exact h
    · exact K.retire _ _ _ h
  · exact h

theorem performRetireAll (K : BlockKept P) (a : Nat) (h : P s) : P (s.performRetireAll a).1 := by
  unfold State.performRetireAll
  split
  · exact K.retire _ _ _ h
  · exact h

theorem performRenew (K : BlockKept P) (hd : Handle) (l : Option (BitVec 16)) (h : P s) : P (s.performRenew hd l).1 := by
  unfold State.performRenew
  split
  · rename_i hp
    split
    · exact h
    · exact K.renewGrant _ _ (ne_free_of_handlePasses hp) h
  · exact h

theorem performSetStation (K : BlockKept P) (a : Nat) (q : BitVec 10) (m : BitVec 2) (b : Bool) (h : P s) :
    P (s.performSetStation a q m b).1 := by
  unfold State.performSetStation
  split
  · have hs : P (s.updStation a (fun r => { r with quota := q, maxClass := m, barred := b })) :=
      K.station _ _ _ (fun _ => ⟨rfl, rfl, rfl⟩) h
    dsimp only
    split
    · exact K.evictStation _ hs
    · exact hs
  · exact h

theorem performEvict (K : BlockKept P) (a : Nat) (h : P s) : P (s.performEvict a).1 := by
  unfold State.performEvict
  split
  · split
    · exact K.evictStation _ h
    · exact h
  · exact h

/-! ## The Request Port -/

theorem postResult (K : BlockKept P) (q : Quad) (h : P s) : P (s.postResult q) := K.raise _ (K.updPort _ h)

theorem perform (K : BlockKept P) (e : Quad) (h : P s) : P (s.perform e) := by
  unfold State.perform
  split
  · exact K.updPort _ h
  · exact K.updPort _ h
  · exact K.postResult _ (K.performRelease _ h)
  · exact K.postResult _ (K.performRenew _ _ h)
  · exact K.postResult _ (K.performSetStation _ _ _ _ h)
  · exact K.postResult _ (K.performEvict _ h)
  · exact K.postResult _ (K.performRetireAll _ h)
  all_goals exact K.postResult _ h

theorem takeEntry (K : BlockKept P) (e : Quad) (rest : List Quad) (h : P s) : P (s.takeEntry e rest) :=
  K.perform _ (K.clearSuspension _ (K.updPort _ h))

theorem serve (K : BlockKept P) (fuel : Nat) (h : P s) : P (s.serve fuel) := by
  induction fuel generalizing s with
  | zero => exact h
  | succ n ih =>
    unfold State.serve
    split
    · exact h
    · split
      · exact ih (K.takeEntry _ _ h)
      · exact h

theorem servePort (K : BlockKept P) (h : P s) : P s.servePort := K.serve _ h

theorem handBack (K : BlockKept P) (e : Quad) (r : Answer) (h : P s) : P (s.handBack e r) :=
  K.servePort (K.raise _ (K.updPort _ h))

theorem post (K : BlockKept P) (h : P s) : P s.post := by
  unfold State.post
  split
  · exact K.servePort (K.updPort _ h)
  · exact K.raise _ h

theorem popResult (K : BlockKept P) (h : P s) : P s.popResult := K.servePort (K.updPort _ h)

theorem request (K : BlockKept P) (e : Quad) (h : P s) : P (s.request e) := K.post (K.updPort _ h)

end BlockKept

/-! ## The Placement Engine -/

/-- Every check of a list that lets a take through holds (R60). -/
theorem firstFailure_eq_none_iff {l : List (Bool × Status)} : firstFailure l = none ↔ ∀ c ∈ l, c.1 = true := by
  simp [firstFailure, List.find?_eq_none]

theorem countInRange_iff {n : Nat} : countInRange n = true ↔ 1 ≤ n ∧ n ≤ 64 := by simp [countInRange]

theorem StationState.inMembership_of_member {x : StationState} (h : x = .member) : x.inMembership = true := by
  rw [h]
  rfl

theorem placeable_of_createChecks {a n : Nat} {p : Option Pattern} {k : Nat → PlacementKind} {g : Grant}
    (hc : firstFailure (s.createChecks a n p) = none) (hn : g.requested = n) (hu : g.planCount = 0 ∧ g.activeCount = 0)
    (hk : (∃ l, k = fun i => .create i l) ∨ ∃ q l, k = fun i => .ask i q l) : s.Placeable k g a := by
  rw [firstFailure_eq_none_iff] at hc
  simp only [State.createChecks, List.mem_cons, List.not_mem_nil, or_false, forall_eq_or_imp, forall_eq,
    Bool.and_eq_true, decide_eq_true_eq, Bool.not_eq_true', List.isEmpty_eq_false_iff, countInRange_iff] at hc
  obtain ⟨⟨-, hm⟩, -, ⟨hr, -⟩, hh, -, hf⟩ := hc
  exact ⟨hm, hh, hf, hn ▸ hr, hu, hk⟩

theorem placeable_of_askChecks {a n : Nat} {p : Option Pattern} {c : BitVec 2} {k : Nat → PlacementKind} {g : Grant}
    (hc : firstFailure (s.askChecks a n p c) = none) (hn : g.requested = n) (hu : g.planCount = 0 ∧ g.activeCount = 0)
    (hk : (∃ l, k = fun i => .create i l) ∨ ∃ q l, k = fun i => .ask i q l) : s.Placeable k g a := by
  rw [firstFailure_eq_none_iff] at hc
  simp only [State.askChecks, List.mem_cons, List.not_mem_nil, or_false, forall_eq_or_imp, forall_eq,
    Bool.and_eq_true, decide_eq_true_eq, Bool.not_eq_true', List.isEmpty_eq_false_iff, countInRange_iff, beq_iff_eq] at hc
  obtain ⟨hm, -, -, ⟨hr, -⟩, hh, -, hf⟩ := hc
  exact ⟨StationState.inMembership_of_member hm, hh, hf, hn ▸ hr, hu, hk⟩

theorem takeResize_eq (e : Quad) (s : State) : s.takeResize e =
    match firstFailure (s.resizeChecks e.handle e.newCount.toNat) with
    | some st => s.handBack e (.refused st)
    | none => s.begin (s.resizeContext e.handle e.newCount.toNat) := rfl

namespace BlockKept

theorem takeCreate (K : BlockKept P) (e : Quad) (h : P s) : P (s.takeCreate e) := by
  unfold State.takeCreate
  dsimp only
  split
  · exact K.handBack _ _ h
  · rename_i hc
    exact K.place _ _ _ _ (placeable_of_createChecks hc rfl ⟨rfl, rfl⟩ (.inl ⟨_, rfl⟩)) h

theorem takeResize (K : BlockKept P) (e : Quad) (h : P s) : P (s.takeResize e) := by
  rw [takeResize_eq]
  split
  · exact K.handBack _ _ h
  · exact K.beginResize _ _ _ ‹_› h

theorem takeLocal (K : BlockKept P) (e : Quad) (h : P s) : P (s.takeLocal e) := by
  unfold State.takeLocal
  split
  · exact K.takeResize _ (K.noteKind _ _ h)
  · exact K.takeCreate _ (K.noteKind _ _ h)

theorem setAsk (K : BlockKept P) (a : Nat) (x : AskStatus) (h : P s) : P (s.setAsk a x) := K.updAsk _ _ h

theorem answerAsk (K : BlockKept P) (a : Nat) (q : BitVec 4) (n : Notice) (h : P s) : P (s.answerAsk a q n) :=
  K.side _ _ (sameBooks_answerAsk _ _ _ _) h

theorem takeAsk (K : BlockKept P) (q : Ask) (h : P s) : P (s.takeAsk q) := by
  unfold State.takeAsk
  dsimp only
  split
  · exact K.answerAsk _ _ _ (K.setAsk _ _ h)
  · rename_i hc
    refine K.place _ _ _ _ ?_ (K.setAsk _ _ h)
    exact placeable_of_askChecks (s := s.setAsk q.station (.inFlight q.fields.seq)) hc rfl ⟨rfl, rfl⟩ (.inr ⟨_, _, rfl⟩)

theorem askQueue (K : BlockKept P) (l : List Ask) (h : P s) : P { s with askQueue := l } :=
  K.side s _ ⟨rfl, rfl, rfl, rfl, rfl, rfl, rfl⟩ h

theorem takeOnce (K : BlockKept P) (h : P s) : P s.takeOnce := by
  unfold State.takeOnce
  split
  · exact h
  · split
    · exact K.takeLocal _ h
    · exact K.takeAsk _ (K.askQueue _ (K.noteKind _ _ h))
    · exact h

theorem takes (K : BlockKept P) (fuel : Nat) (h : P s) : P (s.takes fuel) := by
  induction fuel generalizing s with
  | zero => exact h
  | succ n ih =>
    unfold State.takes
    split
    · exact ih (K.takeOnce h)
    · exact h

theorem catchUp (K : BlockKept P) (h : P s) : P s.catchUp := K.takes _ h

theorem answerLocal (K : BlockKept P) (r : Answer) (h : P s) : P (s.answerLocal r) := by
  unfold State.answerLocal
  split
  · exact h
  · exact K.handBack _ _ h

theorem abandon (K : BlockKept P) (c : Context) (hc : s.engine.context = some c) (h : P s) : P (s.abandon c) := by
  have hr := K.returned c s hc
  unfold State.abandon
  split
  · rename_i hk
    rw [hk] at hr
    exact K.answerLocal _ (hr rfl h)
  · exact K.answerLocal _ (K.endPlacement _ h)
  · rename_i hk
    rw [hk] at hr
    exact K.side _ _ (sameBooks_updAsk _ _ _).endPlacement (hr rfl h)

theorem endNoRoom (K : BlockKept P) (c : Context) (hc : s.engine.context = some c) (h : P s) : P (s.endNoRoom c) := by
  have hr := K.returned c s hc
  unfold State.endNoRoom
  split
  · rename_i hk
    rw [hk] at hr
    exact K.answerLocal _ (hr rfl h)
  · exact K.answerLocal _ (K.endPlacement _ h)
  · rename_i hk
    rw [hk] at hr
    exact K.side _ _ ((sameBooks_updAsk _ _ _).trans (sameBooks_answerAsk _ _ _ _)).endPlacement (hr rfl h)

theorem keepsPlace_withLease (r : BitVec 16) : Grant.KeepsPlace (Grant.withLease r) := fun _ => ⟨rfl, rfl, rfl, rfl, rfl⟩

theorem commit (K : BlockKept P) (c : Context) (t : List Nat) (v : List Handle) (hc : s.Committing c t v) (h : P s) :
    P (s.commit c t v) := by
  have hr := fun f hf => K.committed c t v f s hc hf h
  unfold State.commit
  split
  · rename_i hk
    rw [hk] at hr
    exact K.answerLocal _ (K.side _ _ (sameBooks_noticeOwner _ _ _).endPlacement (hr _ (keepsPlace_withLease _)))
  · rename_i hk
    rw [hk] at hr
    exact K.answerLocal _ (K.side _ _ (sameBooks_noticeOwner _ _ _).endPlacement
      (hr _ (fun _ => ⟨rfl, rfl, rfl, rfl, rfl⟩)))
  · rename_i hk
    rw [hk] at hr
    exact K.side _ _ ((sameBooks_updAsk _ _ _).trans (sameBooks_answerAsk _ _ _ _)).endPlacement
      (hr _ (keepsPlace_withLease _))

theorem endWith (K : BlockKept P) (c : Context) (hc : s.engine.context = some c) (h : P s) : P (s.endWith c) := by
  unfold State.endWith
  split
  · split
    · exact K.answerLocal _ (K.endPlacement _ h)
    · rename_i hr
      split
      · exact K.endNoRoom _ hc h
      · rename_i ho
        exact K.commit _ _ _ ⟨hc, ho, Bool.eq_false_iff.2 hr⟩ h
  · exact K.abandon _ hc h

theorem commitPoint (K : BlockKept P) (h : P s) : P s.commitPoint := by
  unfold State.commitPoint
  split
  · exact h
  · exact K.endWith _ ‹_› h

/-! ## Uplink slots -/

theorem acceptAsk (K : BlockKept P) (a : Nat) (f : AskFields) (h : P s) : P (s.acceptAsk a f) :=
  K.askQueue _ (K.updAsk _ _ h)

theorem arriveAsk (K : BlockKept P) (a : Nat) (f : AskFields) (h : P s) : P (s.arriveAsk a f) := by
  unfold State.arriveAsk
  split
  · exact K.takeOnce (K.acceptAsk _ _ h)
  · exact K.acceptAsk _ _ h

theorem askFor (K : BlockKept P) (a : Nat) (f : AskFields) (h : P s) : P (s.askFor a f) := by
  unfold State.askFor
  split
  · exact h
  · split
    · split
      · exact h
      · exact K.updAsk _ _ (K.handNotice _ _ h)
    · exact K.arriveAsk _ _ h

theorem memberWord (K : BlockKept P) (a : Nat) (b : UplinkBody) (h : P s) : P (s.memberWord a b) := by
  cases b with
  | keep => exact h
  | join => exact K.enterLeaving _ _ h
  | ask f => exact K.askFor _ _ h
  | drop hd => exact K.dropFor _ _ h
  | renew hd code => exact K.renewFor _ _ _ h
  | leave => exact K.enterLeaving _ _ h

theorem joinFor (K : BlockKept P) (a : Nat) (ha : (s.station a).state = .absent) (h : P s) : P (s.joinFor a) := by
  unfold State.joinFor
  split
  · exact K.side _ _ (sameBooks_offerLeft _ _) h
  · unfold State.startJoin
    refine K.updAsk _ _ (K.handNotice _ _ (K.updMailbox _ _ (K.move _ _ _ ?_
      (K.station _ _ _ (fun _ => ⟨rfl, rfl, rfl⟩) h))))
    unfold State.mayMove
    rw [State.station_updStation_same, ha]
    nofun

theorem absentWord (K : BlockKept P) (a : Nat) (b : UplinkBody) (ha : (s.station a).state = .absent) (h : P s) :
    P (s.absentWord a b) := by
  unfold State.absentWord
  split
  · exact K.joinFor _ ha h
  all_goals exact K.side _ _ (sameBooks_offerLeft _ _) h

theorem decodeWord (K : BlockKept P) (a : Nat) (ack : BitVec 4) (b : UplinkBody) (h : P s) :
    P (s.decodeWord a ack b) := by
  unfold State.decodeWord
  split
  · exact K.absentWord _ _ ‹_› h
  · exact K.takeAck _ _ h
  · exact K.memberWord _ _ (K.takeAck _ _ h)
  · exact h
  · exact h

theorem markHeard (K : BlockKept P) (a : Nat) (h : P s) : P (s.markHeard a) := by
  unfold State.markHeard
  split
  · exact K.station _ _ _ (fun _ => ⟨rfl, rfl, rfl⟩) h
  · exact h

theorem testThresholds (K : BlockKept P) (a : Nat) (h : P s) : P (s.testThresholds a) := by
  unfold State.testThresholds
  dsimp only
  split
  · split
    · exact K.failJoin _ _ ‹_› h
    · exact h
  · split
    · exact K.enterLeaving _ _ h
    · split
      · exact K.move _ _ _ (fun _ => .inl rfl) h
      · exact h
  · split
    · exact K.enterLeaving _ _ h
    · exact h
  · exact h
  · exact h

theorem returnFromQuiet (K : BlockKept P) (a : Nat) (h : P s) : P (s.returnFromQuiet a) := by
  unfold State.returnFromQuiet
  split
  · exact K.move _ _ _ (fun _ => .inl rfl) h
  · exact h

theorem countBadWord (K : BlockKept P) (a : Nat) (h : P s) : P (s.countBadWord a) :=
  K.station _ _ _ (fun _ => ⟨rfl, rfl, rfl⟩) h

theorem receiveWord (K : BlockKept P) (a : Nat) (w : Word) (h : P s) : P (s.receiveWord a w) := by
  unfold State.receiveWord
  dsimp only
  split
  · split
    · exact K.countBadWord _ (K.returnFromQuiet _ (K.markHeard _ h))
    · exact K.decodeWord _ _ _ (K.returnFromQuiet _ (K.markHeard _ h))
  · exact K.countBadWord _ (K.markHeard _ h)

theorem uplinkSlot (K : BlockKept P) (a : Nat) (x : Sense) (w : Word) (h : P s) : P (s.uplinkSlot a x w) := by
  cases x with
  | silent =>
    show P (s.silentUplink a)
    unfold State.silentUplink
    split
    · exact K.testThresholds _ (K.station _ _ _ (fun _ => ⟨rfl, rfl, rfl⟩) h)
    · exact h
  | one => exact K.receiveWord _ _ h
  | many => exact K.raise _ (K.station _ _ _ (fun _ => ⟨rfl, rfl, rfl⟩) (K.markHeard _ h))

/-! ## The Slot Monitor and the downlink -/

theorem countIntrusion (K : BlockKept P) (h : P s) : P s.countIntrusion :=
  K.side s _ ⟨rfl, rfl, rfl, rfl, rfl, rfl, rfl⟩ h

theorem intrude (K : BlockKept P) (n : Nat) (h : P s) : P (s.intrude n) := by
  unfold State.intrude
  dsimp only
  split
  · exact K.countIntrusion h
  · exact K.side s.countIntrusion _ ⟨rfl, rfl, rfl, rfl, rfl, rfl, rfl⟩ (K.countIntrusion h)

theorem reportFault (K : BlockKept P) (o : Option Nat) (h : P s) : P (s.reportFault o) := by
  unfold State.reportFault
  split
  · exact h
  · split
    · exact K.station _ _ _ (fun _ => ⟨rfl, rfl, rfl⟩) h
    · exact h

theorem chargeFault (K : BlockKept P) (n i : Nat) (hn : s.activeAt n = some i) (h : P s) : P (s.chargeFault i) := by
  have hg : P (s.updGrant i (fun g => { g with faultCount := satInc g.faultCount })) :=
    K.grant _ _ _ (.inr ⟨n, hn⟩) (fun _ => ⟨rfl, rfl, rfl, rfl, rfl⟩) h
  unfold State.chargeFault
  dsimp only
  split
  · exact K.reportFault _ (K.raise _ (K.retire _ _ _ hg))
  · exact hg

theorem payloadSlot (K : BlockKept P) (n : Nat) (x : Sense) (h : P s) : P (s.payloadSlot n x) := by
  unfold State.payloadSlot
  split
  · exact h
  · rename_i hn
    exact K.grant _ _ _ (.inr ⟨n, hn⟩) (fun _ => ⟨rfl, rfl, rfl, rfl, rfl⟩) h
  · rename_i hn
    exact K.chargeFault n _ hn h
  · exact K.intrude _ h
  · exact K.intrude _ h

theorem overheadSlot (K : BlockKept P) (x : Sense) (h : P s) : P (s.overheadSlot x) := by
  cases x with
  | one => exact h
  | silent => exact K.countIntrusion h
  | many => exact K.countIntrusion h

theorem closeSlot (K : BlockKept P) (n : Nat) (x : Sense) (w : Word) (h : P s) : P (s.closeSlot n x w) := by
  unfold State.closeSlot
  split
  · exact K.overheadSlot _ h
  · exact K.uplinkSlot _ _ _ h
  · exact K.overheadSlot _ h
  · exact K.payloadSlot _ _ h

theorem reportNoAck (K : BlockKept P) (a : Nat) (h : P s) : P (s.reportNoAck a) := by
  unfold State.reportNoAck
  split
  · exact K.failJoin _ _ ‹_› h
  · exact K.enterLeaving _ _ h

/-- A property that does not see the downlink words is kept by an arbitration. -/
theorem arbitrate (K : BlockKept P) (hd : ∀ w s, P s → P { s with downlink := w }) (h : P s) : P s.arbitrate := by
  have serve : ∀ a s, P s → P (s.serveStation a) := by
    intro a s h
    unfold State.serveStation
    dsimp only
    split
    · exact h
    · exact K.side { s with downlink := _ } _ ⟨rfl, rfl, rfl, rfl, rfl, rfl, rfl⟩ (hd _ _ h)
  have examine : ∀ l n s, P s → P (State.examine l n s) := by
    intro l
    induction l with
    | nil => intro n s h; cases n <;> exact h
    | cons a l ih =>
      intro n s h
      cases n with
      | zero => exact h
      | succ n =>
        unfold State.examine
        split
        · split
          · exact ih _ _ (K.reportNoAck _ h)
          · exact ih _ _ (serve _ _ h)
        · exact ih _ _ h
  exact examine _ _ _ (hd _ _ h)

end BlockKept

/-! ## Properties that no claim touches -/

/-- A property that the writes of claims keep, and that sees neither the other fields nor the engine. -/
theorem BlockKept.of_kept (K : Kept P) (hside : ∀ s t, SameBooks s t → P s → P t)
    (hengine : ∀ f s, P s → P (s.updEngine f)) : BlockKept P where
  side := hside
  station _ _ _ _ h := K.station _ _ _ h
  move _ _ _ _ h := K.moveStation _ _ h
  grant _ _ _ _ _ h := K.grant _ _ _ h
  retire _ _ _ h := K.retire _ _ h
  place _ _ _ _ _ h := by
    unfold State.placeNew
    exact hengine _ _ (K.holdOneMore _ (K.freeQueue _ _ (K.grant _ _ _ h)))
  beginResize _ _ _ _ h := hengine _ _ h
  returned _ _ _ _ h := hengine _ _ (K.holdOneFewer _ (K.freeQueue _ _ (K.grant _ _ _ h)))
  committed c t v _ s _ _ h := by
    have victim : ∀ hd s, P s → P (s.retireVictim hd) := by
      intro hd s h
      unfold State.retireVictim
      dsimp only
      split
      · exact K.noticeRevoked _ _ _ _ (K.clearPlan _ h)
      · exact h
    have advance : ∀ i s, P s → P (s.advanceCommit i) := by
      intro i s h
      unfold State.advanceCommit
      exact K.grant _ _ _ (hside s _ ⟨rfl, rfl, rfl, rfl, rfl, rfl, rfl⟩ h)
    have slots : ∀ i s, P s → P (s.takeSlots i t) := fun i s h =>
      foldl_keeps (fun _ _ h => K.recordChange _ _ h) _ (foldl_keeps (fun _ _ h => K.recordChange _ _ h) _ h)
    exact hengine _ _ (K.complete _ (K.grant _ _ _ (slots _ _ (advance _ _ (foldl_keeps victim v h)))))
  noteKind _ _ h := hengine _ _ h
  endPlacement _ h := hengine _ _ h

theorem blockKept_timer (x : Timer) : BlockKept (fun s => s.timer = x) :=
  .of_kept (kept_timer x) (fun _ _ h hs => h.2.2.2.2.1.trans hs) (fun _ _ h => h)

theorem blockKept_downlink (x : List Word) : BlockKept (fun s => s.downlink = x) :=
  .of_kept (kept_downlink x) (fun _ _ h hs => h.2.2.2.2.2.1.trans hs) (fun _ _ h => h)

/-- A property of a field that the operations of the blocks leave as it is. -/
theorem BlockKept.of_field {α : Type} {F : State → α} (K : ∀ x, BlockKept (fun s => F s = x)) (Q : α → Prop) :
    BlockKept (fun s => Q (F s)) where
  side s t hb h := by
    rw [(K _).side s t hb rfl]
    exact h
  station a f s hf h := by
    rw [(K _).station a f s hf rfl]
    exact h
  move a st s hm h := by
    rw [(K _).move a st s hm rfl]
    exact h
  grant i f s hi hf h := by
    rw [(K _).grant i f s hi hf rfl]
    exact h
  retire l why s h := by
    rw [(K _).retire l why s rfl]
    exact h
  place k g a s hp h := by
    rw [(K _).place k g a s hp rfl]
    exact h
  beginResize hd n s hc h := by
    rw [(K _).beginResize hd n s hc rfl]
    exact h
  returned c s hc hn h := by
    rw [(K _).returned c s hc hn rfl]
    exact h
  committed c t v f s hc hf h := by
    rw [(K _).committed c t v f s hc hf rfl]
    exact h
  noteKind k s h := by
    rw [(K _).noteKind k s rfl]
    exact h
  endPlacement s h := by
    rw [(K _).endPlacement s rfl]
    exact h

/-- The swap of a SEALED epoch whose E is FN (R49). -/
def State.swapIfDue (s : State) : State :=
  match s.map.sealedEpoch with
  | some e => if e.effective = s.timer.fn then s.swap e else s
  | none => s

/-- The seal of an OPEN epoch whose S is FN, where none is SEALED (R50). -/
def State.sealIfDue (s : State) : State :=
  match s.map.openEpoch with
  | some e => if e.sealFrame = s.timer.fn ∧ s.map.sealedEpoch = none then s.sealOpen else s
  | none => s

theorem epochsAtStart_eq (s : State) : s.epochsAtStart = s.swapIfDue.sealIfDue := rfl

/-- A swap and a seal keep a property that the writes of claims keep and that does not see the maps (R49, R50). -/
theorem Kept.epochsAtStart (K : Kept P) (hm : ∀ f s, P s → P (s.updMap f)) (h : P s) : P s.epochsAtStart := by
  have up : ∀ (o : Owner) (s : State), P s → P (s.activeCountUp o) := by
    intro o s h
    cases o with
    | none => exact h
    | some i =>
      unfold State.activeCountUp
      exact K.grant _ _ _ h
  have down : ∀ (o : Owner) (s : State), P s → P (s.activeCountDown o) := by
    intro o s h
    cases o with
    | none => exact h
    | some i =>
      unfold State.activeCountDown
      exact K.grant _ _ _ h
  have swap : P s.swapIfDue := by
    unfold State.swapIfDue
    split
    · split
      · exact K.flag _ _ (K.complete _ (foldl_keeps (fun c s h => up _ _ (down _ _ h)) _ (hm _ _ h)))
      · exact h
    · exact h
  rw [epochsAtStart_eq]
  unfold State.sealIfDue
  split
  · split
    · exact hm _ _ swap
    · exact swap
  · exact swap

/-! ## The Frame Timer -/

theorem Timer.place_eq_some {t : Timer} {p : FramePlace} (h : t.place = some p) : t.timing = .running p := by
  unfold Timer.place at h
  split at h
  · nomatch h
  · cases h
    assumption

theorem timer_closeSlot (n : Nat) (x : Sense) (w : Word) (s : State) : (s.closeSlot n x w).timer = s.timer :=
  (blockKept_timer s.timer).closeSlot n x w rfl

theorem timer_arbitrate (s : State) : s.arbitrate.timer = s.timer :=
  (blockKept_timer s.timer).arbitrate (fun _ _ h => h) rfl

theorem timer_tick (s : State) : s.tick.timer = s.timer := (kept_timer s.timer).tick rfl

/-- Going to a place of a running frame is legal where the place is (R3). -/
theorem Timer.legal_goTo {t : Timer} {p q : FramePlace} (ht : t.timing = .running p)
    (hq : ∀ n, q = .slot n → n < t.code.slots) (h : t.legal) : Timer.legal { t with timing := .running q } := by
  obtain ⟨hstart, -, -⟩ := h
  refine ⟨fun hr => ?_, nofun, fun n hn => hq n ?_⟩
  · exact absurd (ht.symm.trans (hstart hr)) nofun
  · exact (Timing.running.inj hn)

namespace PartKept

theorem goTo (K : PartKept P) {p q : FramePlace} (hp : s.timer.place = some p)
    (hq : s.timer.legal → ∀ n, q = .slot n → n < s.timer.code.slots) (h : P s) : P (s.goTo q) :=
  K.timer _ _ (fun hl => Timer.legal_goTo (Timer.place_eq_some hp) (hq hl) hl) rfl h

theorem frameStart (K : PartKept P) (hp : s.timer.place = some .startDue) (h : P s) : P s.frameStart := by
  refine K.goTo (p := .startDue) (by rw [timer_epochsAtStart]; exact hp) (fun _ n hn => ?_) (K.epochs _ h)
  cases hn
  have := LengthCode.slots_ge s.epochsAtStart.timer.code
  omega

theorem highwayStart (K : PartKept P) (h : P s) : P s.highwayStart := by
  unfold State.highwayStart
  split
  · exact K.frameStart rfl (K.timer _ _ (fun _ => ⟨nofun, nofun, nofun⟩) rfl h)
  · exact h

theorem decayTaint (K : PartKept P) (h : P s) : P s.decayTaint := K.side s _ ⟨rfl, rfl, rfl, rfl, rfl, rfl, rfl⟩ h

theorem countDownNotices (K : PartKept P) (h : P s) : P s.countDownNotices :=
  K.side s _ ⟨rfl, rfl, rfl, rfl, rfl, rfl, rfl⟩ h

end PartKept

/-- What follows a frame end is legal (R7). -/
theorem Timer.legal_afterFrame {t : Timer} {p : FramePlace} (ht : t.timing = .running p) (h : t.legal) :
    t.afterFrame.legal := by
  obtain ⟨hstart, -, -⟩ := h
  unfold Timer.afterFrame
  split
  · exact ⟨nofun, nofun, nofun⟩
  · exact ⟨fun hr => absurd (ht.symm.trans (hstart hr)) nofun, nofun, nofun⟩

theorem Timer.code_afterFrame (t : Timer) : t.afterFrame.code = t.code := by
  unfold Timer.afterFrame
  split <;> rfl

theorem Timer.legal_runRequest {t : Timer} (h : t.legal) : t.runRequest.legal := by
  obtain ⟨timing, request, fn, code⟩ := t
  cases timing <;> cases request <;> simp_all [Timer.runRequest, Timer.legal]

theorem Timer.legal_stopRequest {t : Timer} (h : t.legal) : t.stopRequest.legal := by
  obtain ⟨timing, request, fn, code⟩ := t
  cases timing <;> cases request <;> simp_all [Timer.stopRequest, Timer.legal]

theorem Timer.code_runRequest (t : Timer) : t.runRequest.code = t.code := by
  unfold Timer.runRequest
  split <;> rfl

theorem Timer.code_stopRequest (t : Timer) : t.stopRequest.code = t.code := by
  unfold Timer.stopRequest
  split <;> rfl

/-- What the slot event of a slot of the frame leads to is of the frame (R10). -/
theorem LengthCode.placeAfter_lt {c : LengthCode} {n m : Nat} (hn : n < c.slots) (h : c.placeAfter n = .slot m) :
    m < c.slots := by
  unfold LengthCode.placeAfter at h
  split at h
  · nomatch h
  · split at h
    · nomatch h
    · cases h
      omega

/-- The frame end's three parts leave the Frame Timer to what follows (R11). -/
def State.endParts (taken : EndParts) (s : State) : State :=
  let s := if taken.leases then s else s.tickIfDue
  let s := if taken.taint then s else s.decayTaint
  if taken.notices then s else s.countDownNotices

theorem frameEnd_eq (taken : EndParts) (s : State) : s.frameEnd taken = (s.endParts taken).updTimer Timer.afterFrame := rfl

/-- A property that the three parts keep is kept by them together. -/
theorem endParts_keeps (ht : ∀ s, P s → P s.tickIfDue) (hd : ∀ s, P s → P s.decayTaint)
    (hn : ∀ s, P s → P s.countDownNotices) (taken : EndParts) (h : P s) : P (s.endParts taken) := by
  have one : ∀ (b : Bool) (u v : State), P u → P v → P (if b then u else v) := by
    intro b u v hu hv
    cases b
    · exact hv
    · exact hu
  have h1 := one taken.leases _ _ h (ht _ h)
  have h2 := one taken.taint _ _ h1 (hd _ h1)
  exact one taken.notices _ _ h2 (hn _ h2)

theorem timer_endParts (taken : EndParts) (s : State) : (s.endParts taken).timer = s.timer :=
  endParts_keeps (P := fun u => u.timer = s.timer) (fun _ h => (kept_timer s.timer).tickIfDue h) (fun _ h => h)
    (fun _ h => h) taken rfl

namespace PartKept

theorem frameEnd (K : PartKept P) {p : FramePlace} (hp : s.timer.place = some p) (taken : EndParts) (h : P s) :
    P (s.frameEnd taken) := by
  rw [frameEnd_eq]
  refine K.timer _ _ (Timer.legal_afterFrame (p := p) ?_) (Timer.code_afterFrame _)
    (endParts_keeps (fun _ h => K.tickIfDue h) (fun _ h => K.decayTaint h) (fun _ h => K.countDownNotices h) taken h)
  rw [timer_endParts]
  exact Timer.place_eq_some hp

theorem endIfDue (K : PartKept P) (h : P s) : P s.endIfDue := by
  unfold State.endIfDue
  split
  · exact K.frameEnd ‹_› _ h
  all_goals exact h

theorem startIfDue (K : PartKept P) (h : P s) : P s.startIfDue := by
  unfold State.startIfDue
  split
  · exact K.frameStart ‹_› h
  · exact h

theorem arbitrateIfDue (K : PartKept P) (h : P s) : P s.arbitrateIfDue := by
  unfold State.arbitrateIfDue
  split
  · rename_i hp
    refine K.goTo (p := .arbitrationDue) (by rw [timer_arbitrate]; exact hp) (fun _ n hn => ?_) (K.arbitrate _ h)
    cases hn
    have := LengthCode.slots_ge s.arbitrate.timer.code
    omega
  · exact h

theorem slotEventAt (K : PartKept P) {n : Nat} (hp : s.timer.place = some (.slot n)) (x : Sense) (w : Word) (h : P s) :
    P (s.slotEventAt n x w) := by
  refine K.goTo (p := .slot n) (by rw [timer_closeSlot]; exact hp) (fun hl m hm => ?_) (K.closeSlot n x w h)
  obtain ⟨-, -, hslot⟩ := hl
  rw [timer_closeSlot] at hslot ⊢
  exact LengthCode.placeAfter_lt (hslot n (Timer.place_eq_some hp)) hm

theorem slotEvent (K : PartKept P) (x : Sense) (w : Word) (h : P s) : P (s.slotEvent x w) := by
  have hr : P s.reachSlot := K.arbitrateIfDue (K.startIfDue (K.endIfDue h))
  unfold State.slotEvent
  dsimp only
  split
  · exact K.slotEventAt ‹_› _ _ hr
  all_goals exact hr

theorem uplinkWordEvent (K : PartKept P) (w : Word) (h : P s) : P (s.uplinkWordEvent w) := by
  unfold State.uplinkWordEvent
  split
  · split
    · exact K.slotEventAt ‹_› _ _ h
    · exact h
  all_goals exact h

end PartKept

theorem place_of_partsTaken {p : EndParts} (h : s.partsTaken = some p) : s.timer.place = some (.endDue p) := by
  unfold State.partsTaken at h
  split at h
  · cases h
    assumption
  all_goals nomatch h

namespace PartKept

theorem takeTick (K : PartKept P) (b : Bool) (h : P s) : P (s.takeTick b) := by
  unfold State.takeTick
  split
  · exact h
  · rename_i p hp
    split
    · exact K.goTo (p := .endDue p) (by rw [timer_tick]; exact place_of_partsTaken hp) (fun _ => nofun) (K.tick h)
    · exact h

theorem takeDecay (K : PartKept P) (b : Bool) (h : P s) : P (s.takeDecay b) := by
  unfold State.takeDecay
  split
  · exact h
  · rename_i p hp
    split
    · exact K.goTo (p := .endDue p) (place_of_partsTaken hp) (fun _ => nofun) (K.decayTaint h)
    · exact h

theorem takeCountdowns (K : PartKept P) (b : Bool) (h : P s) : P (s.takeCountdowns b) := by
  unfold State.takeCountdowns
  split
  · exact h
  · rename_i p hp
    split
    · exact K.goTo (p := .endDue p) (place_of_partsTaken hp) (fun _ => nofun) (K.countDownNotices h)
    · exact h

/-! ## The register window -/

theorem runRequest (K : PartKept P) (h : P s) : P (s.updTimer Timer.runRequest) :=
  K.timer _ _ Timer.legal_runRequest (Timer.code_runRequest _) h

theorem stopRequest (K : PartKept P) (h : P s) : P (s.updTimer Timer.stopRequest) :=
  K.timer _ _ Timer.legal_stopRequest (Timer.code_stopRequest _) h

theorem configure (K : PartKept P) {b : Bool} {f : State → State} (hf : b = true → P (f s)) (h : P s) :
    P (s.configure b f) := by
  unfold State.configure
  split
  · exact hf ‹_›
  · exact K.raise _ h

theorem writeFrameLength (K : PartKept P) (w : Word) (h : P s) : P (s.writeFrameLength w) := by
  refine K.configure (fun hb => ?_) h
  simp only [Bool.and_eq_true, beq_iff_eq] at hb
  obtain ⟨⟨ht, hf⟩, he⟩ := hb
  exact K.side (s.updTimer (fun t => { t with code := .ofBits (w.extractLsb' 0 2) })) _
    ⟨rfl, rfl, rfl, rfl, rfl, rfl, rfl⟩ (K.length _ _ ht hf he h)

theorem updCfg (K : PartKept P) (f : Registers → Registers) (h : P s) : P (s.updCfg f) :=
  K.side s _ ⟨rfl, rfl, rfl, rfl, rfl, rfl, rfl⟩ h

theorem setInts (K : PartKept P) (x : Interrupts) (h : P s) : P { s with ints := x } :=
  K.side s _ ⟨rfl, rfl, rfl, rfl, rfl, rfl, rfl⟩ h

theorem writeIntrusionCount (K : PartKept P) (h : P s) : P s.writeIntrusionCount :=
  K.side s _ ⟨rfl, rfl, rfl, rfl, rfl, rfl, rfl⟩ h

theorem readAccess (K : PartKept P) (a : BitVec 6) (h : P s) : P (s.readAccess a) :=
  K.side s _ ⟨rfl, rfl, rfl, rfl, rfl, rfl, rfl⟩ h

theorem writeControl (K : PartKept P) (w : Word) (h : P s) : P (s.writeControl w) := by
  unfold State.writeControl
  split
  · exact K.runRequest h
  · exact K.stopRequest h

theorem busWrite (K : PartKept P) (a : BitVec 6) (w : Word) (h : P s) : P (s.busWrite a w) := by
  unfold State.busWrite
  split
  · exact K.writeControl _ h
  · exact K.writeFrameLength _ h
  · exact K.configure (fun _ => K.updCfg _ h) h
  · exact K.configure (fun _ => K.updCfg _ h) h
  · exact K.configure (fun _ => K.updCfg _ h) h
  · exact K.updCfg _ h
  · exact K.updCfg _ h
  · exact K.configure (fun _ => K.updCfg _ h) h
  · exact K.updCfg _ h
  · exact K.updCfg _ h
  · exact K.setInts _ h
  · exact K.setInts _ h
  · exact K.writeIntrusionCount h
  · exact K.post h
  · exact K.popResult h
  · split
    · exact K.updCfg _ h
    · split
      · exact K.updPort _ h
      · exact h

/-! ## Every command -/

theorem event (K : PartKept P) {f : State → State} (hf : ∀ s, P s → P (f s)) {t : State} (ht : s.event f = .next t)
    (h : P s) : P t := by
  unfold State.event at ht
  cases ht
  split
  · exact h
  · split
    · exact hf _ h
    · exact hf _ (K.catchUp h)

theorem exec (K : PartKept P) {c : Instr} {t : State} (ht : exec c s = .next t) (h : P s) : P t := by
  cases c with
  | deviceReset =>
    cases ht
    exact K.fromReset true .l256 s h
  | resetRelease flen =>
    cases ht
    split
    · exact K.fromReset false _ s h
    · exact h
  | highwayStart => exact K.event (fun _ h => K.highwayStart h) ht h
  | frameStart => exact K.event (fun _ h => K.startIfDue (K.endIfDue h)) ht h
  | departureComplete a => exact K.event (fun _ h => K.departIfDone _ h) ht h
  | slotEvent a w => exact K.event (fun _ h => K.slotEvent _ _ h) ht h
  | keep _ | join _ | ask _ _ | drop _ _ | renewWord _ _ _ | leave _ =>
    exact K.event (fun _ h => K.uplinkWordEvent _ h) ht h
  | downlinkArbitration => exact K.event (fun _ h => K.arbitrateIfDue h) ht h
  | frameEnd => exact K.event (fun _ h => K.endIfDue h) ht h
  | taintExpired n => exact K.event (f := State.expireTaint n.toNat) (fun _ h => K.takeDecay _ h) ht h
  | retryCountdownExpired a => exact K.event (f := State.expireCountdown a.toNat) (fun _ h => K.takeCountdowns _ h) ht h
  | strayHoldoffExpired a => exact K.event (f := State.expireHoldoff a.toNat) (fun _ h => K.takeCountdowns _ h) ht h
  | leaseTick => exact K.event (fun _ h => K.takeTick _ h) ht h
  | leaseExpired i => exact K.event (f := State.leaseExpired i.toNat) (fun _ h => K.takeTick _ h) ht h
  | placementTake =>
    cases ht
    split
    · exact h
    · exact K.takeOnce h
  | commitPoint =>
    cases ht
    split
    · exact h
    · exact K.commitPoint (K.catchUp h)
  | create _ _ | resize _ _ _ | release _ _ | renew _ _ _ _ | setStation _ _ _ _ | evict _ | retireAll _
  | lookupGrant _ _ | lookupSlot _ _ | lookupStation _ | listSlots _ _ _ _ | census _ | unknownOp _ _ =>
    exact K.event (fun _ h => K.request _ h) ht h
  | rqpost a => exact K.event (fun _ h => K.post h) ht h
  | rspop a => exact K.event (fun _ h => K.popResult h) ht h
  | runRequest => exact K.event (fun _ h => K.runRequest h) ht h
  | stopRequest => exact K.event (fun _ h => K.stopRequest h) ht h
  | frameLengthWrite w => exact K.event (fun _ h => K.writeFrameLength _ h) ht h
  | epochLeadWrite w => exact K.event (f := State.writeEpochLead w) (fun _ h => K.configure (fun _ => K.updCfg _ h) h) ht h
  | presenceLimitsWrite w =>
    exact K.event (f := State.writePresenceLimits w) (fun _ h => K.configure (fun _ => K.updCfg _ h) h) ht h
  | noticeTimingWrite w =>
    exact K.event (f := State.writeNoticeTiming w) (fun _ h => K.configure (fun _ => K.updCfg _ h) h) ht h
  | faultLimitWrite w => exact K.event (f := State.writeFaultLimit w) (fun _ h => K.configure (fun _ => K.updCfg _ h) h) ht h
  | intrusionCountWrite w => exact K.event (fun _ h => K.writeIntrusionCount h) ht h
  | intFlagsRead => exact K.event (fun _ h => K.readAccess _ h) ht h
  | intFlagsWrite w => exact K.event (f := State.writeIntFlags w) (fun _ h => K.setInts _ h) ht h
  | intEnableWrite w => exact K.event (f := State.writeIntEnable w) (fun _ h => K.setInts _ h) ht h
  | registerWrite a w => exact K.event (fun _ h => K.busWrite _ _ h) ht h

end PartKept

/-- Every step keeps a property that every operation keeps. -/
theorem step_keeps_part (K : PartKept P) {t : State} (ht : step s = .next t) (h : P s) : P t := by
  unfold step at ht
  split at ht
  · cases ht
    exact h
  · exact K.exec ht (K.side s _ ⟨rfl, rfl, rfl, rfl, rfl, rfl, rfl⟩ h)

end Sys2Proof.Machine
end

section
/-! The registers, the Frame Timer, the queues and the downlink words stay legal (O55), and so does the placement in flight
(O58). -/

namespace Sys2Proof.Machine

/-! ## Registers, queues and notices -/

/-- The part of `State.legal` that every single write keeps. -/
def State.queuesLegal (s : State) : Prop :=
  s.cfg.legal ∧ s.port.bounded ∧ s.noticesBounded ∧ s.mailboxes.wf Mailbox.fresh = true

theorem noticesBounded_congr {s t : State} (h : t.mailboxes = s.mailboxes) (hs : s.noticesBounded) : t.noticesBounded :=
  fun a => by
    rw [State.mailbox_congr h]
    exact hs a

theorem noticesBounded_updMailbox {s : State} {a : Nat} {f : Mailbox → Mailbox}
    (hf : (s.mailbox a).queue.length ≤ Config.noticeLimit → (f (s.mailbox a)).queue.length ≤ Config.noticeLimit)
    (h : s.noticesBounded) : (s.updMailbox a f).noticesBounded := by
  intro b
  rw [State.mailbox_updMailbox]
  split
  · exact hf (h a)
  · exact h b

theorem noticesBounded_countDownNotices {s : State} (hw : s.mailboxes.wf Mailbox.fresh = true) (h : s.noticesBounded) :
    s.countDownNotices.noticesBounded := by
  intro a
  rw [State.mailbox_countDownNotices hw]
  exact h a

theorem queuesLegal_reset : State.reset.queuesLegal := by
  refine ⟨by simp [Registers.legal, State.reset, Registers.reset], ?_, ?_, Table.wf_empty _⟩
  · simp [Port.bounded, State.reset]
  · exact fun _ => Nat.zero_le _

theorem keptByAll_queuesLegal : KeptByAll State.queuesLegal where
  grant _ _ _ h := h
  station _ _ _ h := h
  ask _ _ _ h := h
  mailbox a f _ hf := fun ⟨hcfg, hport, hb, hw⟩ => ⟨hcfg, hport, noticesBounded_updMailbox hf hb, Table.wf_put hw a _⟩
  flag _ _ h := h
  freeQueue _ _ h := h
  askQueue _ _ _ h := h
  record n y s _ := by
    rintro ⟨hcfg, hport, hb, hw⟩
    refine ⟨?_, ?_, noticesBounded_congr (s := s) ?_ hb, ?_⟩
    · simpa using hcfg
    · simpa using hport
    · simp
    · simpa using hw
  accept _ _ _ h := h
  counter _ _ h := h
  engine _ _ h := h
  port _ _ hf := fun ⟨hcfg, hport, hrest⟩ => ⟨hcfg, hf hport, hrest⟩
  downlink _ _ _ h := h
  intrusions _ _ h := h
  taint _ _ _ h := h
  swapMap _ _ _ h := h
  sealOpen _ _ h := h
  countDown _ := fun ⟨hcfg, hport, hb, hw⟩ => ⟨hcfg, hport, noticesBounded_countDownNotices hw hb, Table.wf_mapValues hw _⟩
  timer _ _ h := h
  config _ _ hf := fun ⟨hcfg, hrest⟩ => ⟨hf hcfg, hrest⟩
  ints _ _ h := h
  readData _ _ h := h
  fromReset _ _ _ _ := queuesLegal_reset

/-! ## The Frame Timer -/

theorem partKept_timer_legal : PartKept (fun s => s.timer.legal) where
  toBlockKept := .of_field blockKept_timer Timer.legal
  timer _ _ hl _ h := hl h
  epochs s h := by
    rw [timer_epochsAtStart]
    exact h
  arbitrate s h := by
    rw [timer_arbitrate]
    exact h
  length c s ht _ _ := fun ⟨hstart, hstop, _⟩ => ⟨hstart, hstop, fun n hn => absurd (ht.symm.trans hn) nofun⟩
  fromReset _ _ _ _ := ⟨nofun, nofun, nofun⟩

/-! ## The downlink words -/

theorem oddOnes_succ {n : Nat} (b : Bool) (w : BitVec n) : oddOnes (BitVec.ofBool b ++ w) = (oddOnes w ^^ b) := by
  have hlow : ∀ (l : List Nat) (p : Bool), (∀ i ∈ l, i < n) →
      l.foldl (fun p i => p ^^ (BitVec.ofBool b ++ w).getLsbD i) p = l.foldl (fun p i => p ^^ w.getLsbD i) p := by
    intro l
    induction l with
    | nil => intro p _; rfl
    | cons i l ih =>
      intro p hl
      have hi : i < n := hl i (by simp)
      rw [List.foldl_cons, List.foldl_cons, ih _ (fun j hj => hl j (by simp [hj])), BitVec.getLsbD_append]
      simp [hi]
  have hsucc : List.range (1 + n) = List.range n ++ [n] := by rw [Nat.add_comm, List.range_succ]
  unfold oddOnes
  rw [hsucc, List.foldl_append, hlow _ _ (fun i hi => List.mem_range.1 hi)]
  simp [BitVec.getLsbD_append]

/-- Every highway word made up carries odd parity (R189). -/
theorem oddOnes_withParity (body : BitVec 31) : oddOnes (withParity body) = true := by
  unfold withParity
  rw [oddOnes_succ]
  cases oddOnes body <;> rfl

theorem noticeWords_legal (a : Nat) (q : BitVec 4) (n : Notice) :
    (noticeWords a q n).length = 2 ∧ ∀ w ∈ noticeWords a q n, oddOnes w = true := by
  refine ⟨rfl, fun w hw => ?_⟩
  simp only [noticeWords, List.mem_cons, List.not_mem_nil, or_false] at hw
  obtain rfl | rfl := hw
  · exact oddOnes_withParity _
  · exact oddOnes_withParity _

/-- At most this many downlink words are made up, each of odd parity. -/
def State.downlinkWithin (n : Nat) (s : State) : Prop := s.downlink.length ≤ n ∧ ∀ w ∈ s.downlink, oddOnes w = true

theorem downlinkWithin_serveStation {n : Nat} {s : State} (a : Nat) (h : s.downlinkWithin n) :
    (s.serveStation a).downlinkWithin (n + 2) := by
  obtain ⟨hlen, hodd⟩ := h
  unfold State.serveStation
  dsimp only
  split
  · exact ⟨by omega, hodd⟩
  · obtain ⟨h2, hw⟩ := noticeWords_legal a (if ‹Notice› == .left then 0 else (s.mailbox a).sendSequence) ‹Notice›
    refine ⟨?_, fun w hm => ?_⟩
    · simp only [State.downlink_updMailbox, List.length_append, h2]
      omega
    · simp only [State.downlink_updMailbox, List.mem_append] at hm
      exact hm.elim (hodd w) (hw w)

theorem downlink_reportNoAck (s : State) (a : Nat) : (s.reportNoAck a).downlink = s.downlink :=
  (blockKept_downlink s.downlink).reportNoAck a rfl

/-- An examination with `free` pairs left makes up at most that many pairs of words (R144, R145). -/
theorem downlinkWithin_examine (l : List Nat) (free : Nat) {n : Nat} {s : State} (h : s.downlinkWithin n) :
    (State.examine l free s).downlinkWithin (n + 2 * free) := by
  induction l generalizing free n s with
  | nil => cases free <;> exact ⟨h.1.trans (by omega), h.2⟩
  | cons a l ih =>
    cases free with
    | zero => exact h
    | succ free =>
      unfold State.examine
      split
      · split
        · refine ih _ ?_
          unfold State.downlinkWithin
          rw [downlink_reportNoAck]
          exact h
        · have := ih free (downlinkWithin_serveStation a h)
          rwa [show n + 2 + 2 * free = n + 2 * (free + 1) by omega] at this
      · exact ih _ h

theorem partKept_downlinkLegal : PartKept State.downlinkLegal where
  toBlockKept := .of_field blockKept_downlink (fun l => l.length ≤ 16 ∧ ∀ w ∈ l, oddOnes w = true)
  timer _ _ _ _ h := h
  epochs s h := by
    have hd : s.epochsAtStart.downlink = s.downlink := (kept_downlink s.downlink).epochsAtStart (fun _ _ h => h) rfl
    unfold State.downlinkLegal
    rw [hd]
    exact h
  arbitrate s _ := downlinkWithin_examine (n := 0) _ 8 ⟨Nat.le_refl 0, nofun⟩
  length _ _ _ _ _ h := h
  fromReset _ _ _ _ := ⟨Nat.zero_le _, nofun⟩

/-! ## The placement in flight (R57, R63 to R74) -/

/-- A set that a search may choose: n payload slots, ascending. -/
def SlotsFor (c : LengthCode) (n : Nat) (t : List Nat) : Prop :=
  t.length = n ∧ t.Pairwise (· < ·) ∧ ∀ x ∈ t, x ∈ c.payload

/-- A search chooses only such sets. -/
def FindsSlots (c : LengthCode) (n : Nat) (find : (Nat → Bool) → Option (List Nat)) : Prop :=
  ∀ avail t, find avail = some t → SlotsFor c n t

section
variable {c : LengthCode} {avail : Nat → Bool} {n b : Nat} {t own : List Nat}

theorem slotsFor_range' (hb : 64 ≤ b) (hn : b + n ≤ c.slots) : SlotsFor c n (List.range' b n) := by
  refine ⟨List.length_range', List.pairwise_lt_range', fun x hx => ?_⟩
  rw [List.mem_range'_1] at hx
  rw [LengthCode.mem_payload]
  omega

theorem slotsFor_anySearch (h : anySearch c avail n = some t) : SlotsFor c n t := by
  obtain ⟨rfl, hlen⟩ := anySearch_eq_some_iff.1 h
  refine ⟨hlen, (LengthCode.pairwise_filter_payload c avail).sublist (List.take_sublist _ _), fun x hx => ?_⟩
  obtain ⟨hlow, hhigh, -⟩ := LengthCode.mem_lowest hx
  exact LengthCode.mem_payload.2 ⟨hlow, hhigh⟩

theorem slotsFor_blockSearch (hn : n ≤ 64) (h : blockSearch c avail n = some t) : SlotsFor c n t := by
  obtain ⟨b, rfl, hlow, hhigh, -⟩ := (blockSearch_eq_some_iff hn).1 h
  have := LengthCode.slots_ge c
  exact slotsFor_range' hlow (by omega)

/-- The windows of an EVEN search lie one after another within the payload slots (R67). -/
theorem slotsFor_evenSearch (h : evenSearch c avail n = some t) : SlotsFor c n t := by
  obtain ⟨rfl, hwin⟩ := evenSearch_eq_some_iff.1 h
  set w := (c.slots - 64) / t.length with hw
  refine ⟨rfl, ?_, fun x hx => ?_⟩
  · rw [List.pairwise_iff_getElem]
    intro i j hi hj hij
    obtain ⟨x, hx, -, hhigh, -⟩ := hwin i hi
    obtain ⟨y, hy, hlow, -⟩ := hwin j hj
    rw [List.getElem?_eq_getElem hi, Option.some.injEq] at hx
    rw [List.getElem?_eq_getElem hj, Option.some.injEq] at hy
    have : (i + 1) * w ≤ j * w := Nat.mul_le_mul_right w hij
    omega
  · obtain ⟨i, hi, rfl⟩ := List.getElem_of_mem hx
    obtain ⟨y, hy, hlow, hhigh, -⟩ := hwin i hi
    rw [List.getElem?_eq_getElem hi, Option.some.injEq] at hy
    have h1 : (i + 1) * w ≤ t.length * w := Nat.mul_le_mul_right w hi
    have h2 : t.length * w ≤ c.slots - 64 := Nat.mul_div_le _ _
    have h3 := LengthCode.slots_ge c
    rw [LengthCode.mem_payload]
    omega

theorem findsSlots_freshSearch (p : Pattern) (hn : n ≤ 64) :
    FindsSlots c n (fun avail => freshSearch p c avail n) := by
  intro avail t h
  cases p with
  | any => exact slotsFor_anySearch h
  | block => exact slotsFor_blockSearch hn h
  | even => exact slotsFor_evenSearch h

theorem slotsFor_take (ho : SlotsFor c own.length own) (hn : n ≤ own.length) : SlotsFor c n (own.take n) := by
  obtain ⟨-, hsorted, hmem⟩ := ho
  refine ⟨by simp [hn], hsorted.sublist (List.take_sublist _ _), fun x hx => hmem x (List.mem_of_mem_take hx)⟩

/-- The slots held with those added to them, in ascending order (R69). -/
theorem slotsFor_grown {added : List Nat} (ho : SlotsFor c own.length own) (ha : SlotsFor c added.length added)
    (hd : ∀ x ∈ added, x ∉ own) :
    SlotsFor c (own.length + added.length) (c.payload.filter (fun x => own.contains x || added.contains x)) := by
  obtain ⟨-, hsorted, hmem⟩ := ho
  obtain ⟨-, hsorted', hmem'⟩ := ha
  refine ⟨?_, LengthCode.pairwise_filter_payload _ _, fun x hx => (List.mem_filter.1 hx).1⟩
  have hperm : (c.payload.filter (fun x => own.contains x || added.contains x)).Perm (own ++ added) := by
    refine (List.perm_ext_iff_of_nodup ((nodup_payload c).filter _) ?_).2 (fun x => ?_)
    · exact List.nodup_append.2 ⟨hsorted.imp Nat.ne_of_lt, hsorted'.imp Nat.ne_of_lt, fun x hx y hy he =>
        hd y hy (he ▸ hx)⟩
    · simp only [List.mem_filter, Bool.or_eq_true, List.contains_iff_mem, List.mem_append]
      exact ⟨fun h => h.2, fun h => ⟨h.elim (hmem x) (hmem' x), h⟩⟩
  rw [hperm.length_eq, List.length_append]

theorem slotsFor_resizeAny (ho : SlotsFor c own.length own) (h : resizeAny c avail own n = some t) : SlotsFor c n t := by
  unfold resizeAny at h
  split at h
  · cases h
    exact slotsFor_take ho ‹_›
  · rename_i hn
    dsimp only at h
    split at h
    · rename_i hlen
      cases h
      have hg := slotsFor_grown (added := (c.payload.filter (fun x => avail x && !own.contains x)).take (n - own.length)) ho
        ⟨rfl, (LengthCode.pairwise_filter_payload c _).sublist (List.take_sublist _ _), fun x hx =>
          (List.mem_filter.1 (List.mem_of_mem_take hx)).1⟩
        (fun x hx => by simpa using (Bool.and_eq_true_iff.1 (List.mem_filter.1 (List.mem_of_mem_take hx)).2).2)
      rwa [hlen, Nat.add_sub_cancel' (by omega)] at hg
    · nomatch h

/-- An ascending run of slots starts low enough to hold them all. -/
theorem headD_add_length_le (ho : SlotsFor c own.length own) :
    64 ≤ own.headD 64 ∧ own.headD 64 + own.length ≤ max 64 c.slots := by
  obtain ⟨-, hsorted, hmem⟩ := ho
  have hge : ∀ (l : List Nat) (b : Nat), (b :: l).Pairwise (· < ·) → (∀ x ∈ b :: l, x < c.slots) →
      b + (b :: l).length ≤ c.slots := by
    intro l
    induction l with
    | nil =>
      intro b _ hb
      have := hb b (by simp)
      simp
      omega
    | cons a l ih =>
      intro b hp hb
      rw [List.pairwise_cons] at hp
      have h1 := ih a hp.2 (fun x hx => hb x (List.mem_cons_of_mem _ hx))
      have h2 := hp.1 a (by simp)
      simp only [List.length_cons] at *
      omega
  cases own with
  | nil => simp
  | cons b l =>
    have hb := LengthCode.mem_payload.1 (hmem b (by simp))
    have := hge l b hsorted (fun x hx => (LengthCode.mem_payload.1 (hmem x hx)).2)
    simp only [List.headD_cons]
    omega

theorem slotsFor_resizeBlock (ho : SlotsFor c own.length own) (hn : n ≤ 64) (h : resizeBlock c avail own n = some t) :
    SlotsFor c n t := by
  obtain ⟨hlow, hhigh⟩ := headD_add_length_le ho
  have hslots := LengthCode.slots_ge c
  have hfirst : Config.firstPayload = 64 := rfl
  unfold resizeBlock at h
  rw [hfirst] at h
  dsimp only at h
  split at h
  · cases h
    exact slotsFor_take ho ‹_›
  · rename_i hk
    split at h
    · rename_i hup
      cases h
      exact slotsFor_range' hlow hup.1
    · split at h
      · rename_i hdown
        cases h
        exact slotsFor_range' (by omega) (by omega)
      · exact slotsFor_blockSearch hn h

theorem findsSlots_resizeSearch (p : Pattern) (ho : SlotsFor c own.length own) (hn : n ≤ 64) :
    FindsSlots c n (fun avail => resizeSearch p c avail own n) := by
  intro avail t h
  dsimp only [resizeSearch] at h
  split at h
  · rename_i he
    cases h
    exact he ▸ ho
  · cases p with
    | any => exact slotsFor_resizeAny ho h
    | block => exact slotsFor_resizeBlock ho hn h
    | even => exact slotsFor_evenSearch h

end

theorem slotsFor_planSlots (s : State) (i : Nat) : SlotsFor s.timer.code (s.planSlots i).length (s.planSlots i) :=
  ⟨rfl, LengthCode.pairwise_filter_payload _ _, fun _ hx => (List.mem_filter.1 hx).1⟩

/-- What a search answers: slots that `find` chooses, and at most four victims (R63, R72, R73). -/
theorem search_eq_chosen {self a : Nat} {cls : BitVec 2} {find : (Nat → Bool) → Option (List Nat)} {s : State}
    {t : List Nat} {v : List Handle} (h : s.search self a cls find = .chosen t v) :
    (∃ avail, find avail = some t) ∧ v.length ≤ Config.candidateLimit := by
  unfold State.search at h
  split at h
  · cases h
    exact ⟨⟨_, ‹_›⟩, Nat.zero_le _⟩
  · split at h
    · unfold State.preemptivePass at h
      dsimp only at h
      cases hf : List.findSome? (fun added => (find (s.available self added)).map
          (fun t => Found.chosen t (s.victims added t)))
          ((List.range ((s.candidates self a cls).take Config.candidateLimit).length).map
            (fun k => ((s.candidates self a cls).take Config.candidateLimit).take (k + 1))) with
      | none =>
        rw [hf] at h
        nomatch h
      | some f =>
        rw [hf, Option.getD_some] at h
        subst h
        obtain ⟨added, hadded, hfind⟩ := List.exists_of_findSome?_eq_some hf
        obtain ⟨u, hu, he⟩ := Option.map_eq_some_iff.1 hfind
        cases he
        obtain ⟨k, -, rfl⟩ := List.mem_map.1 hadded
        refine ⟨⟨_, hu⟩, ?_⟩
        unfold State.victims
        rw [List.length_map]
        refine (List.length_filter_le _ _).trans ?_
        rw [List.length_take, List.length_take]
        omega
    · nomatch h

theorem Context.legal_of_finds {code : LengthCode} {find : (Nat → Bool) → Option (List Nat)} {c : Context} {self a : Nat}
    {cls : BitVec 2} {s : State} (hn : 1 ≤ c.newCount ∧ c.newCount ≤ 64) (hf : FindsSlots code c.newCount find)
    (ho : c.outcome = s.search self a cls find) : c.legal := by
  refine ⟨hn, fun t v htv => ?_⟩
  obtain ⟨⟨avail, hfind⟩, hv⟩ := search_eq_chosen (ho.symm.trans htv)
  obtain ⟨hlen, hsorted, hmem⟩ := hf avail t hfind
  exact ⟨hlen, hsorted, fun n hn => (LengthCode.mem_payload.1 (hmem n hn)).1, hv⟩

theorem Engine.legal_begin {s : State} {c : Context} (h : c.legal) : (s.begin c).engine.legal := by
  rintro _ ⟨⟩
  exact h

theorem count_of_resizeChecks {s : State} {h : Handle} {n : Nat} (k : firstFailure (s.resizeChecks h n) = none) :
    1 ≤ n ∧ n ≤ 64 :=
  countInRange_iff.1 (firstFailure_eq_none_iff.1 k (countInRange n, .badRequest) (by simp [State.resizeChecks]))

theorem blockKept_engine_legal : BlockKept (fun s => s.engine.legal) where
  side s t hb h := by
    obtain ⟨-, -, -, he, -⟩ := hb
    rw [he]
    exact h
  station _ _ _ _ h := h
  move _ _ _ _ h := h
  grant _ _ _ _ _ h := h
  retire l why s h := by
    rw [(kept_engine s.engine).retire l why rfl]
    exact h
  place k g a s hp _ :=
    Engine.legal_begin (Context.legal_of_finds hp.count (findsSlots_freshSearch g.pattern hp.count.2) rfl)
  beginResize hd n s hc _ :=
    have hn := count_of_resizeChecks hc
    Engine.legal_begin (Context.legal_of_finds hn
      (findsSlots_resizeSearch _ (slotsFor_planSlots s hd.index.toNat) hn.2) rfl)
  returned _ _ _ _ _ := nofun
  committed _ _ _ _ _ _ _ _ := nofun
  noteKind _ _ h := h
  endPlacement _ _ := nofun

theorem partKept_engine_legal : PartKept (fun s => s.engine.legal) where
  toBlockKept := blockKept_engine_legal
  timer _ _ _ _ h := h
  epochs s h := by
    rw [(kept_engine s.engine).epochsAtStart (fun _ _ h => h) rfl]
    exact h
  arbitrate _ h := blockKept_engine_legal.arbitrate (fun _ _ h => h) h
  length _ _ _ _ _ h := h
  fromReset _ _ _ _ := nofun

end Sys2Proof.Machine

namespace Sys2Proof.Proofs

open Sys2Proof.Machine

/-- Settles O55: the registers and queues are kept write by write, the Frame Timer and the downlink words operation by
operation. -/
theorem theStateStaysLegal : Obligations.TheStateStaysLegal := by
  rintro s t ⟨hcfg, htimer, hport, ⟨hnotices, hwf⟩, hdown⟩ ht
  obtain ⟨hcfg', hport', hnotices', hwf'⟩ :=
    step_keeps keptByAll_queuesLegal (fun _ _ h => h) ht ⟨hcfg, hport, hnotices, hwf⟩
  exact ⟨hcfg', step_keeps_part partKept_timer_legal ht htimer, hport', ⟨hnotices', hwf'⟩,
    step_keeps_part partKept_downlinkLegal ht hdown⟩

/-- Settles O58: every search chooses as many payload slots as it is asked for, and names at most four victims. -/
theorem placementStaysLegal : Obligations.PlacementStaysLegal :=
  fun _ _ h ht => step_keeps_part partKept_engine_legal ht h

end Sys2Proof.Proofs
end

section
/-! What the blocks' operations do not look at: the engine, the staging words and the requests that wait. An operation
that writes none of these does the same whatever they hold (`mask_retire`, `mask_perform`, `mask_tick`, …), which says that
an event falls together with a take (log 5, O3), and that the port serves its heads one at a time (O44). -/

namespace Sys2Proof.Machine

/-- Another content for the engine, the staging words and the waiting requests. -/
structure Mask where
  engine : Engine → Engine
  staging : Quad → Quad
  requests : List Quad → List Quad

/-- The state with that content. -/
def State.mask (m : Mask) (s : State) : State :=
  { s with
    engine := m.engine s.engine
    port := { s.port with staging := m.staging s.port.staging, requests := m.requests s.port.requests } }

variable (m : Mask) (s : State)

theorem foldl_mask {α : Type} {f : State → α → State} (h : ∀ s x, f (s.mask m) x = (f s x).mask m) (l : List α) :
    l.foldl f (s.mask m) = (l.foldl f s).mask m := by
  induction l generalizing s with
  | nil => rfl
  | cons x l ih => rw [List.foldl_cons, List.foldl_cons, h, ih]

theorem mask_ite {p : Prop} [Decidable p] (t u : State) : (if p then t else u).mask m = if p then t.mask m else u.mask m :=
  apply_ite _ _ _ _

/-! ## Reads -/

@[simp] theorem mask_grant (i : Nat) : (s.mask m).grant i = s.grant i := rfl
@[simp] theorem mask_station (a : Nat) : (s.mask m).station a = s.station a := rfl
@[simp] theorem mask_ask (a : Nat) : (s.mask m).ask a = s.ask a := rfl
@[simp] theorem mask_mailbox (a : Nat) : (s.mask m).mailbox a = s.mailbox a := rfl
@[simp] theorem mask_planAt (n : Nat) : (s.mask m).planAt n = s.planAt n := rfl
@[simp] theorem mask_activeAt (n : Nat) : (s.mask m).activeAt n = s.activeAt n := rfl
@[simp] theorem mask_planSlots (i : Nat) : (s.mask m).planSlots i = s.planSlots i := rfl
@[simp] theorem mask_handle (i : Nat) : (s.mask m).handle i = s.handle i := rfl
@[simp] theorem mask_handlePasses (h : Handle) : (s.mask m).handlePasses h = s.handlePasses h := rfl
@[simp] theorem mask_derived (i : Nat) : (s.mask m).derived i = s.derived i := rfl
@[simp] theorem mask_effectFor (l : List Nat) : (s.mask m).effectFor l = s.effectFor l := rfl
@[simp] theorem mask_map : (s.mask m).map = s.map := rfl
@[simp] theorem mask_timer : (s.mask m).timer = s.timer := rfl
@[simp] theorem mask_cfg : (s.mask m).cfg = s.cfg := rfl
@[simp] theorem mask_askQueue : (s.mask m).askQueue = s.askQueue := rfl
@[simp] theorem mask_inReset : (s.mask m).inReset = s.inReset := rfl
@[simp] theorem mask_pending : (s.mask m).pending = s.pending := rfl
@[simp] theorem mask_inProgress : (s.mask m).port.inProgress = s.port.inProgress := rfl
@[simp] theorem mask_results : (s.mask m).port.results = s.port.results := rfl

/-! ## Single writes -/

@[simp] theorem mask_updGrant (i : Nat) (f : Grant → Grant) : (s.mask m).updGrant i f = (s.updGrant i f).mask m := rfl
@[simp] theorem mask_updStation (a : Nat) (f : Station → Station) :
    (s.mask m).updStation a f = (s.updStation a f).mask m := rfl
@[simp] theorem mask_updAsk (a : Nat) (f : AskRecord → AskRecord) : (s.mask m).updAsk a f = (s.updAsk a f).mask m := rfl
@[simp] theorem mask_updMailbox (a : Nat) (f : Mailbox → Mailbox) :
    (s.mask m).updMailbox a f = (s.updMailbox a f).mask m := rfl
@[simp] theorem mask_updMap (f : SlotMap → SlotMap) : (s.mask m).updMap f = (s.updMap f).mask m := rfl
@[simp] theorem mask_updTimer (f : Timer → Timer) : (s.mask m).updTimer f = (s.updTimer f).mask m := rfl
@[simp] theorem mask_updCfg (f : Registers → Registers) : (s.mask m).updCfg f = (s.updCfg f).mask m := rfl
@[simp] theorem mask_raise (f : Flag) : (s.mask m).raise f = (s.raise f).mask m := rfl
@[simp] theorem mask_goTo (p : FramePlace) : (s.mask m).goTo p = (s.goTo p).mask m := rfl
@[simp] theorem mask_moveStation (a : Nat) (st : StationState) :
    (s.mask m).moveStation a st = (s.moveStation a st).mask m := by
  simp only [State.moveStation, mask_updStation, mask_raise]
@[simp] theorem mask_emptyQueue (a : Nat) : (s.mask m).emptyQueue a = (s.emptyQueue a).mask m := by
  simp only [State.emptyQueue, mask_updMailbox]
@[simp] theorem mask_enterAbsent (a : Nat) : (s.mask m).enterAbsent a = (s.enterAbsent a).mask m := by
  simp only [State.enterAbsent, mask_emptyQueue, mask_updStation, mask_moveStation]
@[simp] theorem mask_failJoin (a : Nat) (why : LeaveReason) : (s.mask m).failJoin a why = (s.failJoin a why).mask m := by
  simp only [State.failJoin, mask_updStation, mask_enterAbsent]
@[simp] theorem mask_setSuspended (a : Nat) (b : Bool) : (s.mask m).setSuspended a b = (s.setSuspended a b).mask m := rfl
@[simp] theorem mask_sealOpen : (s.mask m).sealOpen = s.sealOpen.mask m := rfl
@[simp] theorem mask_decayTaint : (s.mask m).decayTaint = s.decayTaint.mask m := rfl
@[simp] theorem mask_countDownNotices : (s.mask m).countDownNotices = s.countDownNotices.mask m := rfl
@[simp] theorem mask_countIntrusion : (s.mask m).countIntrusion = s.countIntrusion.mask m := rfl
@[simp] theorem mask_setAsk (a : Nat) (x : AskStatus) : (s.mask m).setAsk a x = (s.setAsk a x).mask m := rfl
@[simp] theorem mask_countBadWord (a : Nat) : (s.mask m).countBadWord a = (s.countBadWord a).mask m := rfl
@[simp] theorem mask_postResult (q : Quad) : (s.mask m).postResult q = (s.postResult q).mask m := rfl
@[simp] theorem mask_handOn (e : Quad) : (s.mask m).handOn e = (s.handOn e).mask m := rfl

/-! ## Notices and the Roster -/

@[simp] theorem mask_handNotice (a : Nat) (n : Notice) : (s.mask m).handNotice a n = (s.handNotice a n).mask m := by
  simp only [State.handNotice, mask_ite, mask_station, mask_mailbox, mask_updMailbox, mask_raise]
  rfl

@[simp] theorem mask_offerLeft (a : Nat) : (s.mask m).offerLeft a = (s.offerLeft a).mask m := by
  simp only [State.offerLeft, mask_ite, mask_mailbox, mask_updMailbox]
  rfl

@[simp] theorem mask_departIfDone (a : Nat) : (s.mask m).departIfDone a = (s.departIfDone a).mask m := by
  simp only [State.departIfDone, mask_ite, mask_station, mask_enterAbsent]

@[simp] theorem mask_holdOneFewer (o : Option Nat) : (s.mask m).holdOneFewer o = (s.holdOneFewer o).mask m := by
  cases o with
  | none => rfl
  | some a => simp only [State.holdOneFewer, mask_updStation, mask_departIfDone]

@[simp] theorem mask_planOneMore (o : Option Nat) : (s.mask m).planOneMore o = (s.planOneMore o).mask m := by
  cases o <;> rfl

@[simp] theorem mask_planOneFewer (o : Option Nat) : (s.mask m).planOneFewer o = (s.planOneFewer o).mask m := by
  cases o <;> rfl

@[simp] theorem mask_takeAck (a : Nat) (ack : BitVec 4) : (s.mask m).takeAck a ack = (s.takeAck a ack).mask m := by
  simp only [State.takeAck, mask_ite, mask_station, mask_mailbox, mask_updMailbox, mask_moveStation]

/-! ## Claims -/

@[simp] theorem mask_openIfNone : (s.mask m).openIfNone = s.openIfNone.mask m := by
  unfold State.openIfNone
  rw [mask_map]
  cases s.map.openEpoch <;> rfl

@[simp] theorem mask_planCountDown (o : Owner) : (s.mask m).planCountDown o = (s.planCountDown o).mask m := by
  cases o with
  | none => rfl
  | some i => simp only [State.planCountDown, mask_updGrant, mask_grant, mask_planOneFewer]

@[simp] theorem mask_planCountUp (o : Owner) : (s.mask m).planCountUp o = (s.planCountUp o).mask m := by
  cases o with
  | none => rfl
  | some i => simp only [State.planCountUp, mask_updGrant, mask_grant, mask_planOneMore]

@[simp] theorem mask_recordChange (n : Nat) (y : Owner) : (s.mask m).recordChange n y = (s.recordChange n y).mask m := by
  simp only [State.recordChange, mask_ite, mask_planAt, mask_openIfNone, mask_updMap, mask_planCountDown,
    mask_planCountUp]

@[simp] theorem mask_clearPlan (i : Nat) : (s.mask m).clearPlan i = (s.clearPlan i).mask m :=
  foldl_mask m s (fun s n => mask_recordChange m s n none) _

@[simp] theorem mask_rederive (i : Nat) : (s.mask m).rederive i = (s.rederive i).mask m := by
  simp only [State.rederive, mask_ite]
  rfl

@[simp] theorem mask_freeRecord (i : Nat) : (s.mask m).freeRecord i = (s.freeRecord i).mask m :=
  mask_holdOneFewer m { s.updGrant i (fun g => Grant.freeWith (g.generation + 1)) with freeQueue := s.freeQueue ++ [i] } _

@[simp] theorem mask_freeIfDue (i : Nat) : (s.mask m).freeIfDue i = (s.freeIfDue i).mask m := by
  simp only [State.freeIfDue, mask_ite, mask_freeRecord, mask_grant, mask_derived]

@[simp] theorem mask_complete (l : List Nat) : (s.mask m).complete l = (s.complete l).mask m := by
  unfold State.complete
  dsimp only
  rw [foldl_mask m s (fun s i => mask_rederive m s i), foldl_mask m _ (fun s i => mask_freeIfDue m s i)]

@[simp] theorem mask_noticeRevoked (why : Option RevokeReason) (o : Option Nat) (h : Handle) (i : Nat) :
    (s.mask m).noticeRevoked why o h i = (s.noticeRevoked why o h i).mask m := by
  cases why with
  | none => rfl
  | some reason =>
    cases o with
    | none => rfl
    | some a => simp only [State.noticeRevoked, mask_ite, mask_handNotice, mask_station, mask_effectFor]

theorem mask_retire (l : List Nat) (why : Option RevokeReason) :
    (s.mask m).retire l why = ((s.retire l why).1.mask m, (s.retire l why).2) := by
  unfold State.retire
  dsimp only [mask_grant, mask_handle]
  rw [foldl_mask m s (fun s i => mask_clearPlan m s i), mask_complete,
    foldl_mask m _ (fun s x => mask_noticeRevoked m s why x.2.1 x.2.2 x.1)]

@[simp] theorem mask_retire_fst (l : List Nat) (why : Option RevokeReason) :
    ((s.mask m).retire l why).1 = (s.retire l why).1.mask m := by rw [mask_retire]

@[simp] theorem mask_dropWaitingAsk (a : Nat) : (s.mask m).dropWaitingAsk a = (s.dropWaitingAsk a).mask m := by
  unfold State.dropWaitingAsk
  rw [mask_ask]
  cases (s.ask a).status <;> rfl

@[simp] theorem mask_enterLeaving (a : Nat) (why : LeaveReason) :
    (s.mask m).enterLeaving a why = (s.enterLeaving a why).mask m := by
  simp only [State.enterLeaving, mask_updStation, mask_moveStation, mask_emptyQueue, mask_dropWaitingAsk,
    mask_departIfDone, State.retirableOf, mask_grant, mask_retire_fst]

@[simp] theorem mask_evictStation (a : Nat) : (s.mask m).evictStation a = (s.evictStation a).mask m := by
  unfold State.evictStation
  rw [mask_station]
  cases (s.station a).state <;> simp only [mask_enterLeaving, mask_failJoin]

@[simp] theorem mask_activeCountUp (o : Owner) : (s.mask m).activeCountUp o = (s.activeCountUp o).mask m := by
  cases o <;> rfl

@[simp] theorem mask_activeCountDown (o : Owner) : (s.mask m).activeCountDown o = (s.activeCountDown o).mask m := by
  cases o <;> rfl

@[simp] theorem mask_swap (e : Epoch) : (s.mask m).swap e = (s.swap e).mask m := by
  unfold State.swap
  dsimp only
  rw [mask_updMap, foldl_mask m _ (fun s c => by rw [mask_activeCountDown, mask_activeCountUp]), mask_complete, mask_raise]

@[simp] theorem mask_swapIfDue : (s.mask m).swapIfDue = s.swapIfDue.mask m := by
  unfold State.swapIfDue
  rw [mask_map]
  cases s.map.sealedEpoch with
  | none => rfl
  | some e => simp only [mask_ite, mask_timer, mask_swap]

@[simp] theorem mask_sealIfDue : (s.mask m).sealIfDue = s.sealIfDue.mask m := by
  unfold State.sealIfDue
  rw [mask_map]
  cases s.map.openEpoch with
  | none => rfl
  | some e => exact (mask_ite m s.sealOpen s).symm

@[simp] theorem mask_epochsAtStart : (s.mask m).epochsAtStart = s.epochsAtStart.mask m := by
  rw [epochsAtStart_eq, epochsAtStart_eq, mask_swapIfDue, mask_sealIfDue]

/-! ## Leases -/

@[simp] theorem mask_noticeOwner (i : Nat) (n : Notice) : (s.mask m).noticeOwner i n = (s.noticeOwner i n).mask m := by
  unfold State.noticeOwner
  rw [mask_grant]
  cases (s.grant i).owner with
  | none => rfl
  | some a => exact mask_handNotice m s a n

@[simp] theorem mask_renewGrant (i : Nat) (r : Option (BitVec 16)) :
    (s.mask m).renewGrant i r = (s.renewGrant i r).mask m := by
  simp only [State.renewGrant, mask_updGrant, mask_noticeOwner, mask_handle, mask_grant]

@[simp] theorem mask_tickLease (i : Nat) : (s.mask m).tickLease i = (s.tickLease i).mask m := by
  simp only [State.tickLease, mask_ite, mask_updGrant, mask_noticeOwner, mask_handle, mask_grant, mask_cfg]

@[simp] theorem mask_tickIdle (i : Nat) : (s.mask m).tickIdle i = (s.tickIdle i).mask m := by
  simp only [State.tickIdle, mask_ite, mask_updGrant, mask_retire_fst, mask_grant, mask_cfg]

@[simp] theorem mask_tickRecord (i : Nat) : (s.mask m).tickRecord i = (s.tickRecord i).mask m := by
  simp only [State.tickRecord, mask_ite, mask_tickLease, mask_retire_fst, mask_tickIdle, mask_grant]

@[simp] theorem mask_tick : (s.mask m).tick = s.tick.mask m := foldl_mask m s (fun s i => mask_tickRecord m s i) _

@[simp] theorem mask_tickIfDue : (s.mask m).tickIfDue = s.tickIfDue.mask m := by
  simp only [State.tickIfDue, mask_ite, mask_tick, mask_timer]

@[simp] theorem mask_owns (a : Nat) (h : Handle) : (s.mask m).owns a h = s.owns a h := rfl

@[simp] theorem mask_renewFor (a : Nat) (h : Handle) (c : BitVec 4) :
    (s.mask m).renewFor a h c = (s.renewFor a h c).mask m := by
  simp only [State.renewFor, mask_owns, mask_ite, mask_handNotice, mask_renewGrant, mask_grant, mask_cfg]

@[simp] theorem mask_dropFor (a : Nat) (h : Handle) : (s.mask m).dropFor a h = (s.dropFor a h).mask m := by
  simp only [State.dropFor, mask_owns, mask_ite, mask_handNotice, mask_retire_fst]

/-! ## Requests performed at the take -/

/-- The mask of a state with an answer. -/
def maskFst (r : State × Answer) : State × Answer := (r.1.mask m, r.2)

theorem maskFst_ite {p : Prop} [Decidable p] (t u : State × Answer) :
    maskFst m (if p then t else u) = if p then maskFst m t else maskFst m u := apply_ite _ _ _ _

@[simp] theorem mask_clearSuspension (e : Quad) : (s.mask m).clearSuspension e = (s.clearSuspension e).mask m := by
  simp only [State.clearSuspension, mask_ite]
  rfl

theorem mask_performRelease (h : Handle) : (s.mask m).performRelease h = maskFst m (s.performRelease h) := by
  simp only [State.performRelease, maskFst_ite, mask_handlePasses, mask_grant, mask_retire_fst, mask_effectFor]
  rfl

theorem mask_performRetireAll (a : Nat) : (s.mask m).performRetireAll a = maskFst m (s.performRetireAll a) := by
  simp only [State.performRetireAll, maskFst_ite, State.namedByRetireAll, mask_grant, mask_retire, mask_effectFor]
  rfl

theorem mask_performRenew (h : Handle) (l : Option (BitVec 16)) :
    (s.mask m).performRenew h l = maskFst m (s.performRenew h l) := by
  simp only [State.performRenew, maskFst_ite, mask_handlePasses, mask_grant, mask_renewGrant]
  rfl

theorem mask_performSetStation (a : Nat) (q : BitVec 10) (c : BitVec 2) (b : Bool) :
    (s.mask m).performSetStation a q c b = maskFst m (s.performSetStation a q c b) := by
  simp only [State.performSetStation, maskFst_ite, mask_updStation, mask_station, mask_evictStation, ← mask_ite]
  rfl

theorem mask_performEvict (a : Nat) : (s.mask m).performEvict a = maskFst m (s.performEvict a) := by
  simp only [State.performEvict, maskFst_ite, mask_station, mask_evictStation]
  rfl

@[simp] theorem mask_answer (e : Quad) (r : State × Answer) : State.answer e (maskFst m r) = (State.answer e r).mask m := rfl

/-- What an op does at its take has nothing to do with the engine, the staging words or the requests behind it (R164). -/
@[simp] theorem mask_perform (e : Quad) : (s.mask m).perform e = (s.perform e).mask m := by
  unfold State.perform
  cases e.op with
  | create => exact mask_handOn m s e
  | resize => exact mask_handOn m s e
  | release => simp only [mask_performRelease, mask_answer]
  | renew => simp only [mask_performRenew, mask_answer]
  | setStation => simp only [mask_performSetStation, mask_answer]
  | evict => simp only [mask_performEvict, mask_answer]
  | retireAll => simp only [mask_performRetireAll, mask_answer]
  | _ => rfl

/-! ## Uplink slots -/

@[simp] theorem mask_joinFor (a : Nat) : (s.mask m).joinFor a = (s.joinFor a).mask m := by
  simp only [State.joinFor, State.startJoin, mask_ite, mask_station, mask_offerLeft, mask_updStation, mask_moveStation,
    mask_updMailbox, mask_handNotice, mask_updAsk]

@[simp] theorem mask_absentWord (a : Nat) (b : UplinkBody) : (s.mask m).absentWord a b = (s.absentWord a b).mask m := by
  cases b <;> simp only [State.absentWord, mask_joinFor, mask_offerLeft]

@[simp] theorem mask_refuseBusy (a : Nat) (q : BitVec 4) : (s.mask m).refuseBusy a q = (s.refuseBusy a q).mask m := by
  simp only [State.refuseBusy, mask_handNotice, mask_updAsk]

@[simp] theorem mask_acceptAsk (a : Nat) (f : AskFields) : (s.mask m).acceptAsk a f = (s.acceptAsk a f).mask m := rfl

@[simp] theorem mask_markHeard (a : Nat) : (s.mask m).markHeard a = (s.markHeard a).mask m := by
  simp only [State.markHeard, mask_ite]
  rfl

@[simp] theorem mask_testThresholds (a : Nat) : (s.mask m).testThresholds a = (s.testThresholds a).mask m := by
  unfold State.testThresholds
  rw [mask_station]
  dsimp only [mask_cfg, mask_station]
  split <;> simp only [mask_ite, mask_failJoin, mask_enterLeaving, mask_moveStation]

@[simp] theorem mask_silentUplink (a : Nat) : (s.mask m).silentUplink a = (s.silentUplink a).mask m := by
  simp only [State.silentUplink, mask_ite, mask_station, mask_updStation, mask_testThresholds]

@[simp] theorem mask_returnFromQuiet (a : Nat) : (s.mask m).returnFromQuiet a = (s.returnFromQuiet a).mask m := by
  simp only [State.returnFromQuiet, mask_ite, mask_station, mask_moveStation]

@[simp] theorem mask_clashUplink (a : Nat) : (s.mask m).clashUplink a = (s.clashUplink a).mask m := by
  simp only [State.clashUplink, mask_markHeard, mask_updStation, mask_raise]

/-! ## The downlink and the Slot Monitor -/

@[simp] theorem mask_serveStation (a : Nat) : (s.mask m).serveStation a = (s.serveStation a).mask m := by
  unfold State.serveStation
  dsimp only [mask_mailbox]
  cases (s.mailbox a).queue <;> rfl

@[simp] theorem mask_eligible (a : Nat) : (s.mask m).eligible a = s.eligible a := rfl

@[simp] theorem mask_atSendLimit (a : Nat) : (s.mask m).atSendLimit a = s.atSendLimit a := rfl

@[simp] theorem mask_reportNoAck (a : Nat) : (s.mask m).reportNoAck a = (s.reportNoAck a).mask m := by
  simp only [State.reportNoAck, mask_ite, mask_station, mask_failJoin, mask_enterLeaving]

@[simp] theorem mask_examine (l : List Nat) (n : Nat) : State.examine l n (s.mask m) = (State.examine l n s).mask m := by
  induction l generalizing n s with
  | nil => cases n <;> rfl
  | cons a l ih =>
    cases n with
    | zero => rfl
    | succ n =>
      simp only [State.examine, mask_ite, mask_eligible, mask_atSendLimit, mask_reportNoAck, mask_serveStation, ih]

@[simp] theorem mask_arbitrate : (s.mask m).arbitrate = s.arbitrate.mask m :=
  mask_examine m { s with downlink := [] } _ _

@[simp] theorem mask_intrude (n : Nat) : (s.mask m).intrude n = (s.intrude n).mask m := by
  simp only [State.intrude, State.taintClaim, mask_ite, mask_countIntrusion, mask_cfg, mask_updMap]
  rfl

@[simp] theorem mask_reportFault (o : Option Nat) : (s.mask m).reportFault o = (s.reportFault o).mask m := by
  cases o with
  | none => rfl
  | some a =>
    simp only [State.reportFault, mask_ite, mask_cfg, mask_setSuspended]
    rfl

@[simp] theorem mask_chargeFault (i : Nat) : (s.mask m).chargeFault i = (s.chargeFault i).mask m := by
  simp only [State.chargeFault, State.retireFaulted, mask_ite, mask_updGrant, mask_grant, mask_cfg, mask_retire_fst,
    mask_raise, mask_reportFault]

@[simp] theorem mask_payloadSlot (n : Nat) (x : Sense) : (s.mask m).payloadSlot n x = (s.payloadSlot n x).mask m := by
  unfold State.payloadSlot
  rw [mask_activeAt]
  cases s.activeAt n <;> cases x <;> simp only [State.markUsed, mask_updGrant, mask_chargeFault, mask_intrude]

@[simp] theorem mask_overheadSlot (x : Sense) : (s.mask m).overheadSlot x = (s.overheadSlot x).mask m := by
  cases x <;> rfl

/-! ## The Frame Timer -/

@[simp] theorem mask_frameStart : (s.mask m).frameStart = s.frameStart.mask m := by
  simp only [State.frameStart, mask_epochsAtStart, mask_goTo]

@[simp] theorem mask_highwayStart : (s.mask m).highwayStart = s.highwayStart.mask m := by
  simp only [State.highwayStart, mask_ite, mask_timer, mask_updTimer, mask_frameStart]

@[simp] theorem mask_frameEnd (p : EndParts) : (s.mask m).frameEnd p = (s.frameEnd p).mask m := by
  simp only [State.frameEnd, ← mask_ite, mask_tickIfDue, mask_decayTaint, mask_countDownNotices, mask_updTimer]

@[simp] theorem mask_endIfDue : (s.mask m).endIfDue = s.endIfDue.mask m := by
  unfold State.endIfDue
  dsimp only [mask_timer]
  split <;> simp only [mask_frameEnd]

@[simp] theorem mask_startIfDue : (s.mask m).startIfDue = s.startIfDue.mask m := by
  simp only [State.startIfDue, mask_ite, mask_timer, mask_frameStart]

@[simp] theorem mask_arbitrateIfDue : (s.mask m).arbitrateIfDue = s.arbitrateIfDue.mask m := by
  simp only [State.arbitrateIfDue, mask_ite, mask_timer, mask_arbitrate, mask_goTo]

@[simp] theorem mask_reachSlot : (s.mask m).reachSlot = s.reachSlot.mask m := by
  simp only [State.reachSlot, mask_endIfDue, mask_startIfDue, mask_arbitrateIfDue]

@[simp] theorem mask_partsTaken : (s.mask m).partsTaken = s.partsTaken := rfl

@[simp] theorem mask_takeTick (b : Bool) : (s.mask m).takeTick b = (s.takeTick b).mask m := by
  unfold State.takeTick
  rw [mask_partsTaken]
  cases s.partsTaken with
  | none => rfl
  | some p => simp only [mask_ite, mask_timer, mask_tick, mask_goTo]

@[simp] theorem mask_takeDecay (b : Bool) : (s.mask m).takeDecay b = (s.takeDecay b).mask m := by
  unfold State.takeDecay
  rw [mask_partsTaken]
  cases s.partsTaken with
  | none => rfl
  | some p => simp only [mask_ite, mask_decayTaint, mask_goTo]

@[simp] theorem mask_takeCountdowns (b : Bool) : (s.mask m).takeCountdowns b = (s.takeCountdowns b).mask m := by
  unfold State.takeCountdowns
  rw [mask_partsTaken]
  cases s.partsTaken with
  | none => rfl
  | some p => simp only [mask_ite, mask_countDownNotices, mask_goTo]

/-! ## The register window -/

theorem mask_configure {b : Bool} {f : State → State} (hf : ∀ s : State, f (s.mask m) = (f s).mask m) :
    (s.mask m).configure b f = (s.configure b f).mask m := by
  simp only [State.configure, mask_ite, hf, mask_raise]

theorem mask_writeFrameLength (w : Word) : (s.mask m).writeFrameLength w = (s.writeFrameLength w).mask m :=
  mask_configure m s (fun _ => rfl)

end Sys2Proof.Machine
end

section
/-! The word formats (R189 to R193): the fields of a joined word, and what reading a request or an uplink word gives back
(O19, O42). -/

namespace Sys2Proof.Machine

/-! ## The fields of a joined word -/

section
variable {m n s w : Nat} {x : BitVec m} {y : BitVec n}

/-- A field above the last part joined stands in the parts before it. -/
@[simp] theorem extract_high (h : n ≤ s) : (no_index (x ++ y)).extractLsb' s w = x.extractLsb' (s - n) w := by
  apply BitVec.eq_of_getLsbD_eq
  intro i hi
  simp only [BitVec.getLsbD_extractLsb', BitVec.getLsbD_append]
  rw [if_neg (by omega)]
  congr 2
  omega

/-- A field within the last part joined stands in it. -/
@[simp] theorem extract_within (h : s + w ≤ n) : (no_index (x ++ y)).extractLsb' s w = y.extractLsb' s w := by
  apply BitVec.eq_of_getLsbD_eq
  intro i hi
  simp only [BitVec.getLsbD_extractLsb', BitVec.getLsbD_append]
  rw [if_pos (by omega)]

@[simp] theorem getLsbD_high (h : n ≤ s) : (no_index (x ++ y)).getLsbD s = x.getLsbD (s - n) := by
  rw [BitVec.getLsbD_append, if_neg (by omega)]

@[simp] theorem getLsbD_within (h : s < n) : (no_index (x ++ y)).getLsbD s = y.getLsbD s := by
  rw [BitVec.getLsbD_append, if_pos h]

/-- A field that takes in whole parts is the join of what it takes from each. -/
theorem extract_join (h : s ≤ n) (hw : n ≤ s + w) : (no_index (x ++ y)).extractLsb' s w =
    BitVec.cast (by omega) (x.extractLsb' 0 (w - (n - s)) ++ y.extractLsb' s (n - s)) := by
  apply BitVec.eq_of_getLsbD_eq
  intro i hi
  simp only [BitVec.getLsbD_extractLsb', BitVec.getLsbD_append, BitVec.getLsbD_cast]
  by_cases hin : s + i < n
  · rw [if_pos hin, if_pos (by omega)]
    simp [hi, show i < n - s by omega]
  · rw [if_neg hin, if_neg (by omega)]
    simp only [hi, decide_true, Bool.true_and, show i - (n - s) < w - (n - s) by omega, Nat.zero_add]
    congr 1
    omega

end

theorem handleOf_handleWord (h : Handle) : handleOf (handleWord h) = h := by
  simp [handleOf, handleWord, handleBits]

/-! ## Request entries (R192) -/

/-- The fields that every request carries are read back. -/
theorem requestWord0_fields (op : BitVec 4) (h : RequestHead) :
    (requestWord0 op h).extractLsb' 0 4 = op ∧ (requestWord0 op h).extractLsb' 16 16 = h.tag
      ∧ (requestWord0 op h).extractLsb' 8 6 = h.station ∧ (requestWord0 op h).getLsbD 7 = h.resume := by
  simp [requestWord0, -BitVec.getLsbD_eq_getElem]

/-- The op and the common fields of an entry with this word 0. -/
theorem Quad.head_fields (op : BitVec 4) (h : RequestHead) (w1 w2 w3 : Word) {e : Quad}
    (he : e = ⟨requestWord0 op h, w1, w2, w3⟩) :
    e.opCode = op ∧ e.op = .ofCode op ∧ e.tag = h.tag ∧ e.station = h.station.toNat ∧ e.resume = h.resume
      ∧ e.w0.extractLsb' 8 6 = h.station := by
  subst he
  obtain ⟨hop, htag, hstation, hresume⟩ := requestWord0_fields op h
  refine ⟨hop, ?_, htag, ?_, hresume, hstation⟩
  · have hcode : (⟨requestWord0 op h, w1, w2, w3⟩ : Quad).opCode = op := hop
    rw [Quad.op, hcode]
  · rw [Quad.station, hstation]

theorem createFields_createEntry (h : RequestHead) (f : CreateFields) : (createEntry h f).createFields = f := by
  obtain ⟨count, pattern, cls, preemptible, stream, lease⟩ := f
  simp [Quad.createFields, createEntry, -BitVec.getLsbD_eq_getElem]

/-- The fields of a RESIZE, a RENEW, a SET_STATION, a LOOKUP_SLOT and a LIST_SLOTS are read back. -/
theorem entry_fields (h : RequestHead) (g : Handle) (n : BitVec 7) (given b : Bool) (lease : BitVec 16) (q : BitVec 10)
    (c : BitVec 2) :
    ((resizeEntry h g n).handle = g ∧ (resizeEntry h g n).newCount = n)
      ∧ ((renewEntry h g given lease).handle = g ∧ (renewEntry h g given lease).leaseGiven = given
        ∧ (renewEntry h g given lease).lease = lease)
      ∧ ((setStationEntry h q c b).quota = q ∧ (setStationEntry h q c b).maxClass = c ∧ (setStationEntry h q c b).barred = b)
      ∧ (lookupSlotEntry h q).w1.extractLsb' 0 10 = q
      ∧ ((listSlotsEntry h g q b).handle = g ∧ (listSlotsEntry h g q b).w2.extractLsb' 0 10 = q
        ∧ (listSlotsEntry h g q b).selectsPlan = b) := by
  refine ⟨⟨handleOf_handleWord g, ?_⟩, ⟨handleOf_handleWord g, ?_, ?_⟩, ⟨?_, ?_, ?_⟩, ?_, handleOf_handleWord g, ?_, ?_⟩
  all_goals
    simp [resizeEntry, Quad.newCount, renewEntry, Quad.leaseGiven, Quad.lease, setStationEntry, Quad.quota,
      Quad.maxClass, Quad.barred, lookupSlotEntry, listSlotsEntry, Quad.selectsPlan, -BitVec.getLsbD_eq_getElem]

theorem handle_handleEntry (op : BitVec 4) (h : RequestHead) (g : Handle) : (handleEntry op h g).handle = g :=
  handleOf_handleWord g

/-- An op code of no known op. -/
theorem Op.ofCode_unknown {op : BitVec 4} (h : op = 0 ∨ 13 ≤ op.toNat) : Op.ofCode op = .unknown := by
  have hcases : ∀ op : BitVec 4, op = 0 ∨ 13 ≤ op.toNat → Op.ofCode op = .unknown := by decide
  exact hcases op h

/-- Reading back the head of a request. -/
theorem requestHead_eq {e : Quad} {h : RequestHead} (ht : e.tag = h.tag) (hr : e.resume = h.resume)
    (hs : e.w0.extractLsb' 8 6 = h.station) :
    ({ resume := e.resume, station := e.w0.extractLsb' 8 6, tag := e.tag } : RequestHead) = h := by
  rw [ht, hr, hs]

/-- Reading a request's words gives back the request (R165, R192). -/
theorem requestOf_requestEntry {c : Instr} {e : Quad} (h : requestEntry c = some e) (hw : c.wellFormed = true) :
    requestOf e = c := by
  have back : ∀ (op : BitVec 4) (head : RequestHead) (w1 w2 w3 : Word), e = ⟨requestWord0 op head, w1, w2, w3⟩ →
      e.opCode = op ∧ e.op = .ofCode op
        ∧ ({ resume := e.resume, station := e.w0.extractLsb' 8 6, tag := e.tag } : RequestHead) = head := by
    intro op head w1 w2 w3 he
    obtain ⟨hc, hop, ht, -, hr, hs⟩ := Quad.head_fields op head w1 w2 w3 he
    exact ⟨hc, hop, requestHead_eq ht hr hs⟩
  have fields := entry_fields
  cases c with
  | create head f =>
    cases h
    obtain ⟨-, hop, hhead⟩ := back _ _ _ _ _ rfl
    rw [requestOf, hop, hhead]
    exact congrArg _ (createFields_createEntry head f)
  | resize head g n =>
    cases h
    obtain ⟨-, hop, hhead⟩ := back _ _ _ _ _ rfl
    obtain ⟨⟨hg, hn⟩, -⟩ := fields head g n false false 0 0 0
    rw [requestOf, hop, hhead]
    exact congrArg₂ _ hg hn
  | release head g =>
    cases h
    obtain ⟨-, hop, hhead⟩ := back _ _ _ _ _ rfl
    rw [requestOf, hop, hhead]
    exact congrArg _ (handle_handleEntry 3 head g)
  | renew head g given lease =>
    cases h
    obtain ⟨-, hop, hhead⟩ := back _ _ _ _ _ rfl
    obtain ⟨-, ⟨hg, hgiven, hlease⟩, -⟩ := fields head g 0 given false lease 0 0
    rw [requestOf, hop, hhead, hg, hgiven, hlease]
    rfl
  | setStation head q m b =>
    cases h
    obtain ⟨-, hop, hhead⟩ := back _ _ _ _ _ rfl
    obtain ⟨-, -, ⟨hq, hm, hb⟩, -⟩ := fields head ⟨0, 0⟩ 0 false b 0 q m
    rw [requestOf, hop, hhead, hq, hm, hb]
    rfl
  | evict head =>
    cases h
    obtain ⟨-, hop, hhead⟩ := back _ _ _ _ _ rfl
    rw [requestOf, hop, hhead]
    rfl
  | retireAll head =>
    cases h
    obtain ⟨-, hop, hhead⟩ := back _ _ _ _ _ rfl
    rw [requestOf, hop, hhead]
    rfl
  | lookupGrant head g =>
    cases h
    obtain ⟨-, hop, hhead⟩ := back _ _ _ _ _ rfl
    rw [requestOf, hop, hhead]
    exact congrArg _ (handle_handleEntry 8 head g)
  | lookupSlot head n =>
    cases h
    obtain ⟨-, hop, hhead⟩ := back _ _ _ _ _ rfl
    obtain ⟨-, -, -, hn, -⟩ := fields head ⟨0, 0⟩ 0 false false 0 n 0
    rw [requestOf, hop, hhead, hn]
    rfl
  | lookupStation head =>
    cases h
    obtain ⟨-, hop, hhead⟩ := back _ _ _ _ _ rfl
    rw [requestOf, hop, hhead]
    rfl
  | listSlots head g n p =>
    cases h
    obtain ⟨-, hop, hhead⟩ := back _ _ _ _ _ rfl
    obtain ⟨-, -, -, -, hg, hn, hp⟩ := fields head g 0 false p 0 n 0
    rw [requestOf, hop, hhead, hg, hn, hp]
    rfl
  | census head =>
    cases h
    obtain ⟨-, hop, hhead⟩ := back _ _ _ _ _ rfl
    rw [requestOf, hop, hhead]
    rfl
  | unknownOp head op =>
    cases h
    obtain ⟨hc, hop, hhead⟩ := back _ _ _ _ _ rfl
    have hu : op = 0 ∨ 13 ≤ op.toNat := by simpa [Instr.wellFormed] using hw
    rw [requestOf, hop, hhead, Op.ofCode_unknown hu, hc]
  | _ => nomatch h

/-! ## Uplink words (R190) -/

/-- The kind, the ack and the body of an uplink word are read back. -/
theorem uplinkWord_fields (ack : BitVec 4) (b : UplinkBody) :
    (uplinkWord ack b).extractLsb' 28 3 = b.kind ∧ uplinkAck (uplinkWord ack b) = ack
      ∧ ∀ s w, s + w ≤ 24 → (uplinkWord ack b).extractLsb' s w = b.bits.extractLsb' s w := by
  refine ⟨by simp [uplinkWord, withParity], by simp [uplinkAck, uplinkWord, withParity], fun s w h => ?_⟩
  rw [uplinkWord, withParity, extract_within (by omega), extract_within h]

theorem uplinkWord_getLsbD (ack : BitVec 4) (b : UplinkBody) {i : Nat} (h : i < 24) :
    (uplinkWord ack b).getLsbD i = b.bits.getLsbD i := by
  rw [uplinkWord, withParity, getLsbD_within (by omega), getLsbD_within h]

theorem uplinkBody_uplinkWord (ack : BitVec 4) (b : UplinkBody) : uplinkBody (uplinkWord ack b) = some b := by
  obtain ⟨hkind, -, hbits⟩ := uplinkWord_fields ack b
  unfold uplinkBody
  rw [hkind]
  cases b with
  | keep => rfl
  | join => rfl
  | leave => rfl
  | ask f =>
    obtain ⟨seq, count, pattern, cls, preemptible, code, stream⟩ := f
    simp [UplinkBody.kind, askFieldsOf, hbits, uplinkWord_getLsbD, UplinkBody.bits, -BitVec.getLsbD_eq_getElem]
  | drop h => simp [UplinkBody.kind, handleOf, hbits, UplinkBody.bits, handleBits]
  | renew h code => simp [UplinkBody.kind, handleOf, hbits, UplinkBody.bits, handleBits]

end Sys2Proof.Machine

namespace Sys2Proof.Proofs

open Sys2Proof.Machine

/-- Settles O42: each field of each request stands alone in its bits. -/
theorem requestEntriesRoundTrip : Obligations.RequestEntriesRoundTrip :=
  fun _ _ h hw => requestOf_requestEntry h hw

/-- Settles O19: each field of an uplink word stands alone in its bits, under the parity bit. -/
theorem uplinkWordsRoundTrip : Obligations.UplinkWordsRoundTrip := fun ack b =>
  ⟨uplinkBody_uplinkWord ack b, (uplinkWord_fields ack b).2.1, oddOnes_withParity _⟩

end Sys2Proof.Proofs
end

section
/-! The layer under the books (R19 to R27, R108, R115): what the maps and lists name, how a count moves with one entry, and
what each book depends on. -/

namespace Sys2Proof.Machine

/-! ## Counting after one change -/

/-- A filter that changes its mind about one member only. -/
theorem length_filter_update {l : List Nat} {n : Nat} {p q : Nat → Bool} (hd : l.Nodup) (hn : n ∈ l)
    (h : ∀ m, m ≠ n → p m = q m) :
    (l.filter p).length + (if q n then 1 else 0) = (l.filter q).length + (if p n then 1 else 0) := by
  have hperm := List.perm_cons_erase hn
  have hnot : n ∉ l.erase n := hd.not_mem_erase
  have hrest : (l.erase n).filter p = (l.erase n).filter q :=
    List.filter_congr (fun m hm => h m (fun e => hnot (e ▸ hm)))
  rw [(hperm.filter p).length_eq, (hperm.filter q).length_eq, List.filter_cons, List.filter_cons, hrest]
  cases p n <;> cases q n <;> simp

/-- A filtered sum in which one term changes, or comes or goes. -/
theorem sum_filter_update {l : List Nat} {i : Nat} {p q : Nat → Bool} {f g : Nat → Nat} (hd : l.Nodup) (hi : i ∈ l)
    (h : ∀ j, j ≠ i → p j = q j ∧ f j = g j) :
    ((l.filter p).map f).sum + (if q i then g i else 0) = ((l.filter q).map g).sum + (if p i then f i else 0) := by
  have hperm := List.perm_cons_erase hi
  have hnot : i ∉ l.erase i := hd.not_mem_erase
  have hfilter : (l.erase i).filter p = (l.erase i).filter q :=
    List.filter_congr (fun m hm => (h m (fun e => hnot (e ▸ hm))).1)
  have hmap : ((l.erase i).filter q).map f = ((l.erase i).filter q).map g :=
    List.map_congr_left (fun m hm => (h m (fun e => hnot (e ▸ (List.mem_filter.1 hm).1))).2)
  rw [((hperm.filter p).map f).sum_eq, ((hperm.filter q).map g).sum_eq, List.filter_cons, List.filter_cons, hfilter]
  cases p i <;> cases q i <;> simp [hmap] <;> omega

/-! ## What the maps and lists name -/

/-- A pending list names record `i` (R40). -/
def SlotMap.listsName (m : SlotMap) (n i : Nat) : Prop :=
  ∃ c, (changeAt m.openEpoch n = some c ∨ changeAt m.sealedEpoch n = some c) ∧ c.names i = true

theorem Change.names_iff {c : Change} {i : Nat} : c.names i = true ↔ c.fromOwner = some i ∨ c.toOwner = some i := by
  simp [Change.names]

/-- The cells of a canonical list are its entries. -/
theorem mem_cells_iff {l : Table (Option Change)} (hw : l.wf none = true) {n : Nat} {c : Change} :
    (n, some c) ∈ l.cells ↔ l.get none n = some c := by
  refine ⟨Table.get_of_mem hw, fun h => ?_⟩
  rcases Table.get_cases none l n with ⟨hnone, -⟩ | hm
  · rw [hnone] at h
    nomatch h
  · rw [h] at hm
    exact hm

theorem mem_changesOf_iff {l : Table (Option Change)} (hw : l.wf none = true) {n : Nat} {c : Change} :
    (n, c) ∈ changesOf l ↔ l.get none n = some c := by
  rw [← mem_cells_iff hw]
  simp only [changesOf, List.mem_filterMap, Option.map_eq_some_iff, Prod.mk.injEq]
  constructor
  · rintro ⟨⟨k, o⟩, hm, d, ho, rfl, rfl⟩
    cases ho
    exact hm
  · intro h
    exact ⟨_, h, c, rfl, rfl, rfl⟩

theorem Epoch.names_iff {e : Epoch} (hw : e.changes.wf none = true) {i : Nat} :
    e.names i = true ↔ ∃ n c, e.changes.get none n = some c ∧ c.names i = true := by
  simp only [Epoch.names, List.any_eq_true, Option.any_eq_true]
  constructor
  · rintro ⟨⟨n, _⟩, hm, c, rfl, hc⟩
    exact ⟨n, c, (mem_cells_iff hw).1 hm, hc⟩
  · rintro ⟨n, c, hc, hn⟩
    exact ⟨_, (mem_cells_iff hw).2 hc, c, rfl, hn⟩

theorem any_names_iff {o : Option Epoch} (hw : changesWf o) {i : Nat} :
    o.any (fun e => e.names i) = true ↔ ∃ n c, changeAt o n = some c ∧ c.names i = true := by
  cases o with
  | none => simp [changeAt]
  | some e => simpa [changeAt] using Epoch.names_iff (hw e rfl)

theorem SlotMap.pendingNames_iff {m : SlotMap} (hm : m.follows) {i : Nat} :
    m.pendingNames i = true ↔ ∃ n, m.listsName n i := by
  obtain ⟨-, hopen, hsealed⟩ := hm
  rw [SlotMap.pendingNames, Bool.or_eq_true, any_names_iff hopen, any_names_iff hsealed]
  simp only [SlotMap.listsName, or_and_right, exists_or]

/-- A record that the lists name alike before and after. -/
theorem SlotMap.pendingNames_congr {m k : SlotMap} (hm : m.follows) (hk : k.follows) {i : Nat}
    (h : ∀ n, k.listsName n i ↔ m.listsName n i) : k.pendingNames i = m.pendingNames i := by
  rw [Bool.eq_iff_iff, SlotMap.pendingNames_iff hk, SlotMap.pendingNames_iff hm]
  simp only [h]

theorem mem_namedIn_iff {l : Table (Option Change)} (hw : l.wf none = true) {i : Nat} :
    i ∈ namedIn l ↔ ∃ n c, l.get none n = some c ∧ c.names i = true := by
  simp only [namedIn, List.mem_flatMap, List.mem_append, Option.mem_toList, Prod.exists, mem_changesOf_iff hw,
    Change.names_iff]

/-! ## What a derived state depends on (R23) -/

theorem State.derived_congr {s t : State} {i : Nat} (hs : (t.grant i).state = .placing ↔ (s.grant i).state = .placing)
    (hp : (t.grant i).planCount = (s.grant i).planCount) (ha : (t.grant i).activeCount = (s.grant i).activeCount)
    (hn : t.map.pendingNames i = s.map.pendingNames i) (hplan : t.planSlots i = s.planSlots i)
    (hactive : t.activeSlots i = s.activeSlots i) : t.derived i = s.derived i := by
  simp only [State.derived, State.freeable, hp, ha, hn, hplan, hactive]
  by_cases h : (s.grant i).state = .placing
  · rw [if_pos h, if_pos (hs.2 h)]
  · rw [if_neg h, if_neg (mt hs.1 h)]
    congr

theorem derived_eq_placing_iff {s : State} {i : Nat} : s.derived i = .placing ↔ (s.grant i).state = .placing := by
  unfold State.derived
  dsimp only
  split
  · simp [*]
  · rename_i h
    simp only [h, iff_false]
    split_ifs <;> decide

theorem derived_of_placing {s : State} {i : Nat} (h : (s.grant i).state = .placing) : s.derived i = .placing :=
  derived_eq_placing_iff.2 h

/-- What the freeing test asks for (R23, test 2). -/
theorem derived_eq_free_iff {s : State} {i : Nat} : s.derived i = .free ↔
    (s.grant i).state ≠ .placing ∧ (s.grant i).planCount = 0 ∧ (s.grant i).activeCount = 0
      ∧ s.map.pendingNames i = false := by
  unfold State.derived State.freeable
  dsimp only
  split
  · simp [*]
  · rename_i h
    by_cases hf : ((s.grant i).planCount == 0 && (s.grant i).activeCount == 0 && !s.map.pendingNames i) = true
    · rw [if_pos hf]
      simpa [h, and_assoc] using hf
    · rw [if_neg hf]
      have : ¬ ((s.grant i).planCount = 0 ∧ (s.grant i).activeCount = 0 ∧ s.map.pendingNames i = false) := by
        simpa [and_assoc] using hf
      simp only [h, not_false_eq_true, true_and, ne_eq, this, iff_false]
      split_ifs <;> decide

/-! ## What the Roster's counts depend on (R115) -/

/-- Record `i` is one that station `a` holds. -/
def State.holds (a i : Nat) (s : State) : Bool := (s.grant i).state != .free && (s.grant i).owner == some a

theorem recordsOf_eq (a : Nat) (s : State) : s.recordsOf a = (List.range Config.grantCount).filter (s.holds a) := rfl

theorem State.holds_iff {a i : Nat} {s : State} :
    s.holds a i = true ↔ (s.grant i).state ≠ .free ∧ (s.grant i).owner = some a := by
  simp [State.holds]

/-- The Roster's counts after a change of one record, told as it is made (R30). -/
theorem State.rosterCounts_of_update {s t : State} {i : Nat} (hi : i < Config.grantCount) (h : s.rosterCounts)
    (hg : ∀ j, j ≠ i → t.grant j = s.grant j)
    (hheld : ∀ a, (t.station a).held + (if s.holds a i then 1 else 0) = (s.station a).held + (if t.holds a i then 1 else 0))
    (hroom : ∀ a, (t.station a).held ≤ Config.grantLimit)
    (hplanned : ∀ a, (t.station a).planned + (if s.holds a i then (s.grant i).planCount else 0)
      = (s.station a).planned + (if t.holds a i then (t.grant i).planCount else 0)) : t.rosterCounts := by
  intro a
  obtain ⟨hlen, -, hsum⟩ := h a
  have hmem : i ∈ List.range Config.grantCount := List.mem_range.2 hi
  have hholds : ∀ j, j ≠ i → t.holds a j = s.holds a j := fun j hj => by simp only [State.holds, hg j hj]
  have hlength := length_filter_update List.nodup_range hmem hholds
  have hsums := sum_filter_update (f := fun j => (t.grant j).planCount) (g := fun j => (s.grant j).planCount)
    List.nodup_range hmem (fun j hj => ⟨hholds j hj, by rw [hg j hj]⟩)
  rw [← recordsOf_eq, ← recordsOf_eq] at hlength hsums
  have hh := hheld a
  have hp := hplanned a
  refine ⟨?_, hroom a, ?_⟩ <;> omega

theorem State.rosterCounts_congr {s t : State}
    (hg : ∀ i, (t.grant i).state = (s.grant i).state ∧ (t.grant i).owner = (s.grant i).owner
      ∧ (t.grant i).planCount = (s.grant i).planCount)
    (hs : ∀ a, (t.station a).held = (s.station a).held ∧ (t.station a).planned = (s.station a).planned)
    (h : s.rosterCounts) : t.rosterCounts := by
  intro a
  obtain ⟨hheld, hplanned⟩ := hs a
  simpa only [hheld, hplanned, State.recordsOf, (hg _).1, (hg _).2.1, (hg _).2.2] using h a

/-! ## What the other books depend on -/

theorem State.ownersPresent_iff {s : State} : s.ownersPresent ↔
    ∀ i, (s.grant i).state ≠ .free → ∃ a, (s.grant i).owner = some a ∧ (s.station a).state.mayOwn = true := by
  have hown : ∀ x : StationState, x.mayOwn = true ↔ x = .member ∨ x = .quiet ∨ x = .leaving := by
    intro x
    cases x <;> simp [StationState.mayOwn]
  simp only [State.ownersPresent, hown]

theorem State.ownersPresent_congr {s t : State}
    (hg : ∀ i, (t.grant i).state ≠ .free → (s.grant i).state ≠ .free ∧ (t.grant i).owner = (s.grant i).owner)
    (hs : ∀ a, (s.station a).state.mayOwn = true → (t.station a).state.mayOwn = true) (h : s.ownersPresent) :
    t.ownersPresent := by
  rw [State.ownersPresent_iff] at h ⊢
  intro i hi
  obtain ⟨hne, howner⟩ := hg i hi
  obtain ⟨a, ha, hmay⟩ := h i hne
  exact ⟨a, howner.trans ha, hs a hmay⟩

theorem State.freeQueueHolds_congr {s t : State} (hq : t.freeQueue = s.freeQueue)
    (hg : ∀ i, (t.grant i).state = .free ↔ (s.grant i).state = .free) (h : s.freeQueueHolds) : t.freeQueueHolds := by
  simpa only [State.freeQueueHolds, hq, hg] using h

theorem State.handlePasses_iff {s : State} {h : Handle} : s.handlePasses h = true ↔ h.index.toNat < Config.grantCount
    ∧ (s.grant h.index.toNat).state ≠ .free ∧ (s.grant h.index.toNat).state ≠ .placing
    ∧ h.generation = (s.grant h.index.toNat).generation := by
  simp [State.handlePasses, and_assoc]

theorem State.placementHolds_of_idle {s : State} (h : s.engine.context = none) : s.placementHolds := by
  intro c hc
  rw [h] at hc
  nomatch hc

theorem State.placementHolds_congr {s t : State} (he : t.engine.context = s.engine.context)
    (hcode : t.timer.code = s.timer.code)
    (hg : ∀ i, (s.grant i).state = .placing → (t.grant i).state = .placing ∧ (t.grant i).owner = (s.grant i).owner)
    (hh : ∀ h, t.handlePasses h = true → s.handlePasses h = true) (h : s.placementHolds) : t.placementHolds := by
  intro c hc
  obtain ⟨hnew, hslots⟩ := h c (he ▸ hc)
  refine ⟨fun i hi => ?_, fun l v ho hr n hn => ?_⟩
  · obtain ⟨hlt, hstate, howner⟩ := hnew i hi
    obtain ⟨hstate', howner'⟩ := hg i hstate
    exact ⟨hlt, hstate', howner'.trans howner⟩
  · rw [State.payload, hcode]
    exact hslots l v ho (fun h k => hh h (hr h k)) n hn

/-! ## A claim in progress -/

/-- The books while a claim is made: all hold but the derived states of the records of `T`, whose completion is to come
(R44), and the record `new` may be named while it is still PLACING. -/
structure State.Claiming (T new : Nat → Prop) (s : State) : Prop where
  follows : s.map.follows
  counts : s.countsHold
  owners : ∀ n i, s.map.namesAt n i → n ∈ s.payload ∧ i < Config.grantCount ∧ (s.grant i).state ≠ .free
    ∧ ((s.grant i).state = .placing → new i)
  derived : ∀ i, (s.grant i).state ≠ .free → i < Config.grantCount ∧ (T i ∨ (s.grant i).state = s.derived i)
  cleared : ∀ i, (s.grant i).state = .free → s.grant i = Grant.freeWith (s.grant i).generation
  queue : s.freeQueueHolds
  roster : s.rosterCounts
  present : s.ownersPresent
  placement : s.placementHolds

/-- No record. -/
abbrev noRecord : Nat → Prop := fun _ => False

theorem State.booksAgree_iff {s : State} : s.booksAgree ↔ s.Claiming noRecord noRecord := by
  constructor
  · rintro ⟨hf, hc, ho, hd, hq, hr, hp, hpl⟩
    exact ⟨hf, hc, ho, fun i hi => ⟨((hd i).1 hi).1, .inr ((hd i).1 hi).2⟩, fun i => (hd i).2, hq, hr, hp, hpl⟩
  · rintro ⟨hf, hc, ho, hd, hcl, hq, hr, hp, hpl⟩
    exact ⟨hf, hc, ho, fun i => ⟨fun hi => ⟨(hd i hi).1, (hd i hi).2.resolve_left id⟩, hcl i⟩, hq, hr, hp, hpl⟩

variable {T T' new new' : Nat → Prop} {s : State}

theorem State.Claiming.mono (h : s.Claiming T new) (hT : ∀ i, i < Config.grantCount → T i → T' i) : s.Claiming T' new :=
  { h with derived := fun i hi => ⟨(h.derived i hi).1, (h.derived i hi).2.imp_left (hT i (h.derived i hi).1)⟩ }

theorem State.Claiming.mono_new (h : s.Claiming T new) (hnew : ∀ i, new i → new' i) : s.Claiming T new' :=
  { h with owners := fun n i hn => ⟨(h.owners n i hn).1, (h.owners n i hn).2.1, (h.owners n i hn).2.2.1,
      fun hp => hnew i ((h.owners n i hn).2.2.2 hp)⟩ }

theorem State.Claiming.side {t : State} (h : s.Claiming T new) (hb : SameBooks s t) : t.Claiming T new := by
  obtain ⟨hg, hq, hs, he, ht, hd, hm⟩ := hb
  obtain ⟨inReset, timer, cfg, grants, freeQueue, cc, map, engine, stations, asks, askQueue, mailboxes, ap, downlink, intr,
    port, ints, rd, pending⟩ := t
  dsimp only at hg hq hs he ht hd hm
  subst hg hq hs he ht hd
  obtain ⟨active, plan, taint, op, se, ec⟩ := map
  cases hm
  exact ⟨h.follows, h.counts, h.owners, h.derived, h.cleared, h.queue, h.roster, h.present, h.placement⟩

end Sys2Proof.Machine
end

section
/-! The books through a claim (R42 to R47): recording a change, re-deriving and freeing keep what a claim in progress keeps
(`State.Claiming`), and the completion brings the books to agreement. -/

namespace Sys2Proof.Machine

variable {T new : Nat → Prop} {s : State}

/-! ## What a recorded change names -/

theorem recordChange_same {n : Nat} {y : Owner} (h : s.planAt n = y) : s.recordChange n y = s := by
  simp [State.recordChange, h]

theorem map_recordChange {n : Nat} {y : Owner} (h : s.planAt n ≠ y) :
    (s.recordChange n y).map = s.openIfNone.map.recordIn n (s.planAt n) y := by
  simp [State.recordChange, h]

theorem changeAt_recordChange {n : Nat} {y : Owner} (h : s.planAt n ≠ y) (m : Nat) :
    changeAt (s.recordChange n y).map.openEpoch m =
      if m = n then mergedChange (changeAt s.map.openEpoch n) (s.planAt n) y else changeAt s.map.openEpoch m := by
  rw [map_recordChange h, changeAt_recordIn (isSome_openEpoch_openIfNone s), changeAt_openIfNone, changeAt_openIfNone]

theorem sealedEpoch_recordChange (s : State) (n : Nat) (y : Owner) :
    (s.recordChange n y).map.sealedEpoch = s.map.sealedEpoch := (kept_sealed s.map.sealedEpoch).recordChange n y rfl

theorem activeAt_recordChange (s : State) (n : Nat) (y : Owner) (m : Nat) :
    (s.recordChange n y).activeAt m = s.activeAt m := by
  unfold State.activeAt
  rw [(kept_active s.map.active).recordChange n y rfl]

theorem timer_recordChange (s : State) (n : Nat) (y : Owner) : (s.recordChange n y).timer = s.timer :=
  (kept_timer s.timer).recordChange n y rfl

theorem payload_recordChange (s : State) (n : Nat) (y : Owner) : (s.recordChange n y).payload = s.payload := by
  unfold State.payload
  rw [timer_recordChange]

/-- The lists name a record that is neither the slot's old owner nor its new one as they did (R42). -/
theorem listsName_recordChange (hf : s.map.follows) {n i : Nat} {y : Owner} (hx : s.planAt n ≠ some i) (hy : y ≠ some i)
    (m : Nat) : (s.recordChange n y).map.listsName m i ↔ s.map.listsName m i := by
  by_cases hne : s.planAt n = y
  · rw [recordChange_same hne]
  · simp only [SlotMap.listsName, changeAt_recordChange hne, sealedEpoch_recordChange]
    by_cases hm : m = n
    · subst hm
      simp only [if_true, or_and_right, exists_or]
      refine or_congr_left ?_
      cases hc : changeAt s.map.openEpoch m with
      | none => simp [mergedChange, Change.names_iff, hx, hy]
      | some c =>
        have hto : c.toOwner ≠ some i := ((hf.1 m).2.1 c hc).2.1 ▸ hx
        by_cases hfrom : c.fromOwner = y
        · simp [mergedChange, hfrom, Change.names_iff, hto, hy]
        · simp [mergedChange, hfrom, Change.names_iff, hto, hy]
    · simp only [if_neg hm]

/-- A slot's new owner is all that a recorded change newly names (R42). -/
theorem namesAt_of_recordChange {n m i : Nat} {y : Owner} (h : (s.recordChange n y).map.namesAt m i) :
    s.map.namesAt m i ∨ (m = n ∧ y = some i) := by
  by_cases hne : s.planAt n = y
  · rw [recordChange_same hne] at h
    exact .inl h
  · rcases h with h | h | ⟨c, h | h, hc⟩
    · exact .inl (.inl ((activeAt_recordChange s n y m).symm.trans h))
    · have h : (s.recordChange n y).planAt m = some i := h
      rw [planAt_recordChange] at h
      split at h
      · exact .inr ⟨‹_›, h⟩
      · exact .inl (.inr (.inl h))
    · rw [changeAt_recordChange hne] at h
      split at h
      · rename_i hm
        subst hm
        rw [Change.names_iff] at hc
        cases ho : changeAt s.map.openEpoch m with
        | none =>
          simp only [ho, mergedChange, Option.some.injEq] at h
          subst h
          exact hc.elim (fun hx => .inl (.inr (.inl hx))) (fun hy => .inr ⟨rfl, hy⟩)
        | some d =>
          simp only [ho, mergedChange] at h
          split at h
          · nomatch h
          · cases h
            exact hc.elim (fun hx => .inl (.inr (.inr ⟨d, .inl ho, Change.names_iff.2 (.inl hx)⟩)))
              (fun hy => .inr ⟨rfl, hy⟩)
      · exact .inl (.inr (.inr ⟨c, .inl h, hc⟩))
    · rw [sealedEpoch_recordChange] at h
      exact .inl (.inr (.inr ⟨c, .inr h, hc⟩))

/-! ## What a recorded change counts -/

/-- A recorded change touches a record's planCount only. -/
theorem grant_recordChange_but_count (s : State) (n : Nat) (y : Owner) (j : Nat) :
    (s.recordChange n y).grant j = { s.grant j with planCount := ((s.recordChange n y).grant j).planCount } := by
  rw [grant_recordChange]
  split_ifs <;> rfl

theorem state_recordChange (s : State) (n : Nat) (y : Owner) (j : Nat) :
    ((s.recordChange n y).grant j).state = (s.grant j).state := by rw [grant_recordChange_but_count]

theorem owner_recordChange (s : State) (n : Nat) (y : Owner) (j : Nat) :
    ((s.recordChange n y).grant j).owner = (s.grant j).owner := by rw [grant_recordChange_but_count]

theorem activeCount_recordChange (s : State) (n : Nat) (y : Owner) (j : Nat) :
    ((s.recordChange n y).grant j).activeCount = (s.grant j).activeCount := by rw [grant_recordChange_but_count]

theorem handlePasses_recordChange (s : State) (n : Nat) (y : Owner) (h : Handle) :
    (s.recordChange n y).handlePasses h = s.handlePasses h := by
  unfold State.handlePasses
  rw [grant_recordChange_but_count]

theorem activeSlots_recordChange (s : State) (n : Nat) (y : Owner) (j : Nat) :
    (s.recordChange n y).activeSlots j = s.activeSlots j := by
  simp only [State.activeSlots, payload_recordChange, activeAt_recordChange]

theorem planSlots_recordChange_other {n j : Nat} {y : Owner} (hx : s.planAt n ≠ some j) (hy : y ≠ some j) :
    (s.recordChange n y).planSlots j = s.planSlots j := by
  simp only [State.planSlots, payload_recordChange, planAt_recordChange]
  refine List.filter_congr (fun m _ => ?_)
  split
  · rename_i hm
    simp [hm, hx, hy]
  · rfl

/-- A record's PLAN slots go up or down by the one recorded (R19, R42). -/
theorem length_planSlots_recordChange {n : Nat} (hn : n ∈ s.payload) (y : Owner) (j : Nat) :
    ((s.recordChange n y).planSlots j).length + (if s.planAt n = some j then 1 else 0)
      = (s.planSlots j).length + (if y = some j then 1 else 0) := by
  have h := length_filter_update (p := fun m => decide ((s.recordChange n y).planAt m = some j))
    (q := fun m => decide (s.planAt m = some j)) (nodup_payload s.timer.code) hn
    (fun m hm => by simp only [planAt_recordChange, if_neg hm])
  have hnew : (s.recordChange n y).planAt n = y := by rw [planAt_recordChange, if_pos rfl]
  simp only [hnew, decide_eq_true_eq] at h
  rw [State.planSlots, payload_recordChange]
  exact h

theorem countsHold_recordChange {n : Nat} (hn : n ∈ s.payload) (y : Owner) (h : s.countsHold) :
    (s.recordChange n y).countsHold := by
  intro j
  obtain ⟨hplan, hactive⟩ := h j
  refine ⟨?_, by rw [activeCount_recordChange, activeSlots_recordChange, hactive]⟩
  have hlen := length_planSlots_recordChange hn y j
  rw [grant_recordChange]
  by_cases hne : s.planAt n = y
  · rw [if_pos hne, hplan]
    rw [recordChange_same hne]
  · rw [if_neg hne]
    by_cases hy : y = some j
    · have hx : s.planAt n ≠ some j := fun hx => hne (hx.trans hy.symm)
      rw [if_pos hy] at hlen ⊢
      rw [if_neg hx] at hlen
      simp only
      omega
    · rw [if_neg hy] at hlen ⊢
      split at hlen
      · rw [if_pos ‹_›]
        simp only
        omega
      · rw [if_neg ‹_›]
        omega

/-! ## What a recorded change tells the Roster -/

theorem station_planOneFewer (s : State) (o : Option Nat) (a : Nat) : (s.planOneFewer o).station a =
    if o = some a then { s.station a with planned := (s.station a).planned - 1 } else s.station a := by
  cases o with
  | none => rfl
  | some b =>
    simp only [State.planOneFewer, State.station_updStation, Option.some.injEq, eq_comm (a := b)]
    split
    · rename_i hab
      subst hab
      rfl
    · rfl

theorem station_planOneMore (s : State) (o : Option Nat) (a : Nat) : (s.planOneMore o).station a =
    if o = some a then { s.station a with planned := (s.station a).planned + 1 } else s.station a := by
  cases o with
  | none => rfl
  | some b =>
    simp only [State.planOneMore, State.station_updStation, Option.some.injEq, eq_comm (a := b)]
    split
    · rename_i hab
      subst hab
      rfl
    · rfl

theorem station_planCountDown (s : State) (i a : Nat) : (s.planCountDown (some i)).station a =
    if (s.grant i).owner = some a then { s.station a with planned := (s.station a).planned - 1 } else s.station a :=
  station_planOneFewer (s.updGrant i (fun g => { g with planCount := g.planCount - 1 })) _ a

theorem station_planCountUp (s : State) (i a : Nat) : (s.planCountUp (some i)).station a =
    if (s.grant i).owner = some a then { s.station a with planned := (s.station a).planned + 1 } else s.station a :=
  station_planOneMore (s.updGrant i (fun g => { g with planCount := g.planCount + 1 })) _ a

theorem planCount_le_planned (h : s.rosterCounts) {a i : Nat} (hi : i < Config.grantCount) (hh : s.holds a i = true) :
    (s.grant i).planCount ≤ (s.station a).planned := by
  obtain ⟨-, -, hsum⟩ := h a
  rw [hsum, recordsOf_eq]
  exact List.le_sum_of_mem (List.mem_map_of_mem (List.mem_filter.2 ⟨List.mem_range.2 hi, hh⟩))

/-- A planCount that goes down is told to the owner (R30, R115). -/
theorem rosterCounts_planCountDown {x : Owner}
    (hx : ∀ i, x = some i → i < Config.grantCount ∧ (s.grant i).state ≠ .free ∧ 1 ≤ (s.grant i).planCount)
    (h : s.rosterCounts) : (s.planCountDown x).rosterCounts := by
  cases x with
  | none => exact h
  | some i =>
    obtain ⟨hi, hstate, hcount⟩ := hx i rfl
    have hgrant := grant_planCountDown s (some i)
    have hholds : ∀ a, (s.planCountDown (some i)).holds a i = s.holds a i := fun a => by simp [State.holds, hgrant]
    refine State.rosterCounts_of_update hi h (fun j hj => ?_) (fun a => ?_) (fun a => ?_) (fun a => ?_)
    · rw [hgrant, if_neg (by simpa using Ne.symm hj)]
    · rw [hholds, station_planCountDown]
      split <;> rfl
    · have hroom := (h a).2.1
      rw [station_planCountDown]
      split <;> exact hroom
    · have hle : s.holds a i = true → _ := planCount_le_planned h hi
      have hown : s.holds a i = true ↔ (s.grant i).owner = some a := by simp [State.holds_iff, hstate]
      rw [hholds, station_planCountDown, hgrant, if_pos rfl]
      by_cases ho : (s.grant i).owner = some a
      · have := hle (hown.2 ho)
        simp only [hown, ho, if_true]
        omega
      · simp only [hown, ho, if_false]

/-- A planCount that goes up is told to the owner (R30, R115). -/
theorem rosterCounts_planCountUp {y : Owner}
    (hy : ∀ i, y = some i → i < Config.grantCount ∧ (s.grant i).state ≠ .free) (h : s.rosterCounts) :
    (s.planCountUp y).rosterCounts := by
  cases y with
  | none => exact h
  | some i =>
    obtain ⟨hi, hstate⟩ := hy i rfl
    have hgrant := grant_planCountUp s (some i)
    have hholds : ∀ a, (s.planCountUp (some i)).holds a i = s.holds a i := fun a => by simp [State.holds, hgrant]
    refine State.rosterCounts_of_update hi h (fun j hj => ?_) (fun a => ?_) (fun a => ?_) (fun a => ?_)
    · rw [hgrant, if_neg (by simpa using Ne.symm hj)]
    · rw [hholds, station_planCountUp]
      split <;> rfl
    · have hroom := (h a).2.1
      rw [station_planCountUp]
      split <;> exact hroom
    · have hown : s.holds a i = true ↔ (s.grant i).owner = some a := by simp [State.holds_iff, hstate]
      rw [hholds, station_planCountUp, hgrant, if_pos rfl]
      by_cases ho : (s.grant i).owner = some a
      · simp only [hown, ho, if_true]
        omega
      · simp only [hown, ho, if_false]

theorem rosterCounts_recordChange {n : Nat} {y : Owner}
    (hx : ∀ i, s.planAt n = some i → i < Config.grantCount ∧ (s.grant i).state ≠ .free ∧ 1 ≤ (s.grant i).planCount)
    (hy : ∀ i, y = some i → i < Config.grantCount ∧ (s.grant i).state ≠ .free) (h : s.rosterCounts) :
    (s.recordChange n y).rosterCounts := by
  by_cases hne : s.planAt n = y
  · rwa [recordChange_same hne]
  · have hgrant : ∀ i, (s.openIfNone.updMap (SlotMap.recordIn n (s.planAt n) y)).grant i = s.grant i :=
      State.grant_congr (by simp)
    have hrecorded : (s.openIfNone.updMap (SlotMap.recordIn n (s.planAt n) y)).rosterCounts :=
      State.rosterCounts_congr (fun i => by rw [hgrant]; exact ⟨rfl, rfl, rfl⟩) (fun a => by
        rw [State.station_congr (s := s) (by simp) a]
        exact ⟨rfl, rfl⟩) h
    rw [State.recordChange]
    simp only [if_neg hne]
    refine rosterCounts_planCountUp (fun i hi => ?_) (rosterCounts_planCountDown (fun i hi => ?_) hrecorded)
    · obtain ⟨hlt, hstate⟩ := hy i hi
      rw [grant_planCountDown, hgrant]
      exact ⟨hlt, by split <;> exact hstate⟩
    · rw [hgrant]
      exact hx i hi

/-! ## Recording a change keeps a claim in progress (R42) -/

/-- A change may be recorded of a payload slot, between records whose completion is to come; a new owner is in use, or the
record placed. -/
theorem State.Claiming.recordChange (h : s.Claiming T new) {n : Nat} {y : Owner} (hn : n ∈ s.payload)
    (hx : ∀ i, s.planAt n = some i → T i)
    (hy : ∀ i, y = some i → T i ∧ i < Config.grantCount ∧ (s.grant i).state ≠ .free
      ∧ ((s.grant i).state = .placing → new i)) : (s.recordChange n y).Claiming T new := by
  have hfollows : (s.recordChange n y).map.follows := keptByAll_follows.toKept.recordChange n y h.follows
  refine ⟨hfollows, countsHold_recordChange hn y h.counts, fun m i hm => ?_, fun i hi => ?_, fun i hi => ?_, ?_, ?_, ?_, ?_⟩
  · rw [payload_recordChange, state_recordChange]
    rcases namesAt_of_recordChange hm with hold | ⟨rfl, hyi⟩
    · exact h.owners m i hold
    · exact ⟨hn, (hy i hyi).2⟩
  · rw [state_recordChange] at hi ⊢
    obtain ⟨hlt, hd⟩ := h.derived i hi
    refine ⟨hlt, ?_⟩
    by_cases hT : T i
    · exact .inl hT
    · have hxi : s.planAt n ≠ some i := fun hxi => hT (hx i hxi)
      have hyi : y ≠ some i := fun hyi => hT (hy i hyi).1
      have hcount : ((s.recordChange n y).grant i).planCount = (s.grant i).planCount := by
        rw [grant_recordChange, if_neg hxi, if_neg hyi, ite_self]
      rw [State.derived_congr (by rw [state_recordChange]) hcount (activeCount_recordChange s n y i)
        (SlotMap.pendingNames_congr h.follows hfollows (listsName_recordChange h.follows hxi hyi))
        (planSlots_recordChange_other hxi hyi) (activeSlots_recordChange s n y i)]
      exact hd
  · rw [state_recordChange] at hi
    have hxi : s.planAt n ≠ some i := fun hxi => (h.owners n i (.inr (.inl hxi))).2.2.1 hi
    have hyi : y ≠ some i := fun hyi => (hy i hyi).2.2.1 hi
    have hsame : (s.recordChange n y).grant i = s.grant i := by
      rw [grant_recordChange, if_neg hxi, if_neg hyi, ite_self]
    rw [hsame]
    exact h.cleared i hi
  · refine State.freeQueueHolds_congr ?_ (fun i => by rw [state_recordChange]) h.queue
    rw [planOnly_recordChange s n y]
  · refine rosterCounts_recordChange (fun i hi => ?_) (fun i hi => ?_) h.roster
    · obtain ⟨-, hlt, hstate, -⟩ := h.owners n i (.inr (.inl hi))
      refine ⟨hlt, hstate, ?_⟩
      rw [(h.counts i).1]
      exact List.length_pos_of_mem (List.mem_filter.2 ⟨hn, by simpa using hi⟩)
    · obtain ⟨-, hlt, hstate, -⟩ := hy i hi
      exact ⟨hlt, hstate⟩
  · refine State.ownersPresent_congr (fun i hi => ?_) (fun a ha => ?_) h.present
    · rw [state_recordChange] at hi
      exact ⟨hi, owner_recordChange s n y i⟩
    · rw [(kept_station s a _ _ n y ⟨rfl, rfl⟩).1]
      exact ha
  · refine State.placementHolds_congr ?_ (by rw [timer_recordChange]) (fun i hi => ?_) (fun g hg => ?_) h.placement
    · rw [planOnly_recordChange s n y]
    · rw [state_recordChange]
      exact ⟨hi, owner_recordChange s n y i⟩
    · rwa [handlePasses_recordChange] at hg

/-- The changes to one owner of slots that no record outside the claim has in PLAN. -/
theorem State.Claiming.recordChanges {l : List Nat} {y : Owner} (h : s.Claiming T new) (hl : ∀ n ∈ l, n ∈ s.payload)
    (hx : ∀ n ∈ l, ∀ i, s.planAt n = some i → T i)
    (hy : ∀ i, y = some i → T i ∧ i < Config.grantCount ∧ (s.grant i).state ≠ .free
      ∧ ((s.grant i).state = .placing → new i)) : (l.foldl (fun s n => s.recordChange n y) s).Claiming T new := by
  induction l generalizing s with
  | nil => exact h
  | cons n l ih =>
    rw [List.foldl_cons]
    refine ih (h.recordChange (hl n (by simp)) (hx n (by simp)) hy) (fun m hm => ?_) (fun m hm i hi => ?_) (fun i hi => ?_)
    · rw [payload_recordChange]
      exact hl m (by simp [hm])
    · rw [planAt_recordChange] at hi
      split at hi
      · exact (hy i hi).1
      · exact hx m (by simp [hm]) i hi
    · rw [state_recordChange]
      exact hy i hi

theorem State.Claiming.clearPlan (h : s.Claiming T new) {i : Nat} (hi : T i) : (s.clearPlan i).Claiming T new := by
  have hslots : ∀ n ∈ s.planSlots i, n ∈ s.payload ∧ s.planAt n = some i := by simp [State.planSlots]
  refine h.recordChanges (fun n hn => (hslots n hn).1) (fun n hn j hj => ?_) nofun
  rw [(hslots n hn).2] at hj
  cases hj
  exact hi

end Sys2Proof.Machine
end

section
/-! The completion of a claim or swap (R44), and the writes of records and stations beside it: what they keep of the books. -/

namespace Sys2Proof.Machine

variable {T T' new new' : Nat → Prop} {s : State}

/-! ## Stations -/

theorem State.Claiming.station (h : s.Claiming T new) {a : Nat} {f : Station → Station} (hf : Station.KeepsCounts f) :
    (s.updStation a f).Claiming T new := by
  obtain ⟨hstate, hheld, hplanned⟩ := hf (s.station a)
  refine ⟨h.follows, h.counts, h.owners, h.derived, h.cleared, h.queue, ?_, ?_, h.placement⟩
  · refine State.rosterCounts_congr (s := s) (fun _ => ⟨rfl, rfl, rfl⟩) (fun b => ?_) h.roster
    rw [State.station_updStation]
    split
    · rename_i hb
      subst hb
      exact ⟨hheld, hplanned⟩
    · exact ⟨rfl, rfl⟩
  · refine State.ownersPresent_congr (s := s) (fun i hi => ⟨hi, rfl⟩) (fun b hb => ?_) h.present
    rw [State.station_updStation]
    split
    · rename_i hb'
      subst hb'
      rwa [hstate]
    · exact hb

theorem station_moveStation (s : State) (a : Nat) (st : StationState) (b : Nat) :
    (s.moveStation a st).station b = if b = a then { s.station a with state := st } else s.station b :=
  s.station_updStation a b (fun r => { r with state := st })

/-- A station that owns no record may go to any state, and another to one in which it may own (R97, R108). -/
theorem State.Claiming.move (h : s.Claiming T new) {a : Nat} {st : StationState} (hm : s.mayMove a st) :
    (s.moveStation a st).Claiming T new := by
  refine ⟨h.follows, h.counts, h.owners, h.derived, h.cleared, h.queue, ?_, ?_, h.placement⟩
  · refine State.rosterCounts_congr (s := s) (fun _ => ⟨rfl, rfl, rfl⟩) (fun b => ?_) h.roster
    rw [station_moveStation]
    split
    · rename_i hb
      subst hb
      exact ⟨rfl, rfl⟩
    · exact ⟨rfl, rfl⟩
  · refine State.ownersPresent_iff.2 (fun i hi => ?_)
    obtain ⟨b, howner, hmay⟩ := State.ownersPresent_iff.1 h.present i hi
    refine ⟨b, howner, ?_⟩
    rw [station_moveStation]
    split
    · rename_i hb
      subst hb
      refine (hm hmay).resolve_right (fun hheld => ?_)
      have hmem : i ∈ s.recordsOf b := by
        rw [recordsOf_eq, List.mem_filter]
        exact ⟨List.mem_range.2 (h.derived i hi).1, State.holds_iff.2 ⟨hi, howner⟩⟩
      have := List.length_pos_of_mem hmem
      rw [← (h.roster b).1] at this
      omega
    · exact hmay

theorem State.Claiming.departIfDone (h : s.Claiming T new) (a : Nat) : (s.departIfDone a).Claiming T new := by
  unfold State.departIfDone
  split
  · rename_i hl
    have hqueue := h.side (sameBooks_updMailbox a Mailbox.emptied s)
    have hrecord := hqueue.station (a := a) (f := fun r => { r with suspended := false, missed := 0 })
      (fun _ => ⟨rfl, rfl, rfl⟩)
    refine hrecord.move (fun _ => .inr ?_)
    rw [State.station_updStation_same]
    exact hl.2
  · exact h

/-! ## Records in use -/

/-- A write of a record that was and stays in use, its owner, generation and counts kept. -/
theorem State.Claiming.updGrant (h : s.Claiming T new) {i : Nat} {f : Grant → Grant}
    (hfree : (s.grant i).state ≠ .free) (hfree' : (f (s.grant i)).state ≠ .free)
    (howner : (f (s.grant i)).owner = (s.grant i).owner) (hplan : (f (s.grant i)).planCount = (s.grant i).planCount)
    (hactive : (f (s.grant i)).activeCount = (s.grant i).activeCount)
    (hgen : (f (s.grant i)).generation = (s.grant i).generation)
    (hplacing : s.engine.context = none ∨ ((f (s.grant i)).state = .placing ↔ (s.grant i).state = .placing))
    (hT : ∀ j, j ≠ i → T j → T' j) (hTi : T' i ∨ (f (s.grant i)).state = (s.updGrant i f).derived i)
    (hnew : ∀ j, ((s.updGrant i f).grant j).state = .placing → (s.grant j).state = .placing ∧ (new j → new' j)) :
    (s.updGrant i f).Claiming T' new' := by
  have hother : ∀ j, j ≠ i → (s.updGrant i f).grant j = s.grant j := fun j hj => s.grant_updGrant_other f hj
  have hself : (s.updGrant i f).grant i = f (s.grant i) := s.grant_updGrant_same i f
  have hinuse : ∀ j, ((s.updGrant i f).grant j).state = .free ↔ (s.grant j).state = .free := by
    intro j
    by_cases hj : j = i
    · subst hj
      rw [hself]
      exact iff_of_false hfree' hfree
    · rw [hother j hj]
  have hkeeps : ∀ j, ((s.updGrant i f).grant j).owner = (s.grant j).owner
      ∧ ((s.updGrant i f).grant j).planCount = (s.grant j).planCount
      ∧ ((s.updGrant i f).grant j).activeCount = (s.grant j).activeCount
      ∧ ((s.updGrant i f).grant j).generation = (s.grant j).generation := by
    intro j
    by_cases hj : j = i
    · subst hj
      rw [hself]
      exact ⟨howner, hplan, hactive, hgen⟩
    · rw [hother j hj]
      exact ⟨rfl, rfl, rfl, rfl⟩
  refine ⟨h.follows, fun j => ?_, fun n j hn => ?_, fun j hj => ?_, fun j hj => ?_, ?_, ?_, ?_, ?_⟩
  · obtain ⟨-, hp, ha, -⟩ := hkeeps j
    rw [hp, ha]
    exact h.counts j
  · obtain ⟨hmem, hlt, hne, hpl⟩ := h.owners n j hn
    exact ⟨hmem, hlt, mt (hinuse j).1 hne, fun hp => (hnew j hp).2 (hpl (hnew j hp).1)⟩
  · obtain ⟨hlt, hd⟩ := h.derived j (mt (hinuse j).2 hj)
    refine ⟨hlt, ?_⟩
    by_cases hji : j = i
    · subst hji
      rwa [hself]
    · rw [hother j hji]
      refine hd.imp (hT j hji) (fun hd => hd.trans ?_)
      obtain ⟨-, hp, ha, -⟩ := hkeeps j
      exact (State.derived_congr (by rw [hother j hji]) hp ha rfl rfl rfl).symm
  · have hji : j ≠ i := by
      rintro rfl
      rw [hself] at hj
      exact hfree' hj
    rw [hother j hji] at hj ⊢
    exact h.cleared j hj
  · exact State.freeQueueHolds_congr (s := s) rfl hinuse h.queue
  · have hholds : ∀ a, (s.updGrant i f).holds a i = s.holds a i := by
      intro a
      rw [Bool.eq_iff_iff, State.holds_iff, State.holds_iff, Ne, hinuse, (hkeeps i).1]
    refine State.rosterCounts_of_update (h.derived i hfree).1 h.roster hother (fun a => ?_) (fun a => (h.roster a).2.1)
      (fun a => ?_)
    · rw [hholds]
      rfl
    · rw [hholds, (hkeeps i).2.1]
      rfl
  · exact State.ownersPresent_congr (s := s) (fun j hj => ⟨mt (hinuse j).2 hj, (hkeeps j).1⟩) (fun _ ha => ha) h.present
  · rcases hplacing with hidle | hiff
    · exact State.placementHolds_of_idle hidle
    · have hstate : ∀ j, ((s.updGrant i f).grant j).state = .placing ↔ (s.grant j).state = .placing := by
        intro j
        by_cases hj : j = i
        · subst hj
          rwa [hself]
        · rw [hother j hj]
      refine State.placementHolds_congr (s := s) rfl rfl (fun j hj => ⟨(hstate j).2 hj, (hkeeps j).1⟩) (fun g hg => ?_)
        h.placement
      rw [State.handlePasses_iff] at hg ⊢
      obtain ⟨hlt, hne, hnp, hgen'⟩ := hg
      exact ⟨hlt, mt (hinuse _).2 hne, mt (hstate _).2 hnp, hgen'.trans (hkeeps _).2.2.2⟩

/-- A record that a map or list names, or that is not FREE, is in use (R25, R33). -/
theorem State.Claiming.ne_free_of_inUse (h : s.Claiming T new) {i : Nat} (hi : s.inUse i) : (s.grant i).state ≠ .free := by
  rcases hi with hi | ⟨n, hn⟩
  · exact hi
  · exact (h.owners n i (.inl hn)).2.2.1

theorem State.Claiming.keepsPlace (h : s.Claiming T new) {i : Nat} {f : Grant → Grant} (hi : s.inUse i)
    (hf : Grant.KeepsPlace f) : (s.updGrant i f).Claiming T new := by
  have hfree := h.ne_free_of_inUse hi
  obtain ⟨hstate, howner, hplan, hactive, hgen⟩ := hf (s.grant i)
  have hall : ∀ j, ((s.updGrant i f).grant j).state = (s.grant j).state := by
    intro j
    rw [State.grant_updGrant]
    split
    · rename_i hj
      subst hj
      exact hstate
    · rfl
  refine h.updGrant hfree (by rwa [hstate]) howner hplan hactive hgen (.inr (by rw [hstate])) (fun _ _ hT => hT) ?_
    (fun j hj => ⟨(hall j).symm.trans hj, id⟩)
  refine (h.derived i hfree).2.imp_right (fun hd => ?_)
  rw [hstate, hd]
  refine (State.derived_congr (s := s) (i := i) (t := s.updGrant i f) (by rw [hall]) ?_ ?_ rfl rfl rfl).symm
  · rwa [State.grant_updGrant_same]
  · rwa [State.grant_updGrant_same]

/-! ## Re-deriving (R24) -/

theorem derived_rederive (s : State) (i j : Nat) : (s.rederive i).derived j = s.derived j := by
  unfold State.rederive
  split
  · rfl
  · have hkeeps : ((s.updGrant i (fun g => { g with state := s.derived i })).grant j)
        = { s.grant j with state := if j = i then s.derived i else (s.grant j).state } := by
      rw [State.grant_updGrant]
      split
      · rename_i hj
        rw [hj]
      · rfl
    refine State.derived_congr ?_ (by rw [hkeeps]) (by rw [hkeeps]) rfl rfl rfl
    rw [hkeeps]
    dsimp only
    split
    · rename_i hj
      rw [hj, derived_eq_placing_iff]
    · rfl

theorem State.Claiming.rederive (h : s.Claiming T new) (i : Nat) :
    (s.rederive i).Claiming (fun j => T j ∧ (j = i → s.derived i = .free)) new := by
  have hd := derived_rederive s i i
  unfold State.rederive at hd ⊢
  split
  · rename_i hsame
    refine { h with derived := fun j hj => ⟨(h.derived j hj).1, ?_⟩ }
    refine (h.derived j hj).2.imp_left (fun hT => ⟨hT, fun hji => hsame.resolve_left ?_⟩)
    rwa [← hji]
  · rename_i hne
    rw [if_neg hne] at hd
    obtain ⟨hfree, hfree'⟩ := not_or.1 hne
    refine h.updGrant hfree hfree' rfl rfl rfl rfl (.inr derived_eq_placing_iff)
      (fun j hj hT => ⟨hT, fun hji => absurd hji hj⟩) (.inr hd.symm) (fun j hj => ⟨?_, id⟩)
    rw [State.grant_updGrant] at hj
    split at hj
    · rename_i hji
      rw [hji]
      exact derived_eq_placing_iff.1 hj
    · exact hj

theorem State.Claiming.rederives (h : s.Claiming T new) (l : List Nat) :
    (l.foldl (fun s i => s.rederive i) s).Claiming (fun j => T j ∧ (j ∈ l → s.derived j = .free)) new
      ∧ ∀ j, (l.foldl (fun s i => s.rederive i) s).derived j = s.derived j := by
  induction l generalizing s T with
  | nil => exact ⟨h.mono (fun _ _ hT => ⟨hT, nofun⟩), fun _ => rfl⟩
  | cons i l ih =>
    obtain ⟨hc, hd⟩ := ih (h.rederive i)
    simp only [derived_rederive] at hc hd
    refine ⟨hc.mono (fun j _ ⟨⟨hT, hi⟩, hl⟩ => ⟨hT, fun hj => ?_⟩), hd⟩
    rcases List.mem_cons.1 hj with rfl | hj
    · exact hi rfl
    · exact hl hj

/-! ## Freeing (R25, R26) -/

/-- A record that meets the freeing test is named nowhere. -/
theorem State.Claiming.not_namesAt (h : s.Claiming T new) {i : Nat} (hd : s.derived i = .free) (n : Nat) :
    ¬ s.map.namesAt n i := by
  obtain ⟨-, hplan, hactive, hlists⟩ := derived_eq_free_iff.1 hd
  obtain ⟨hcp, hca⟩ := h.counts i
  intro hn
  have hmem := (h.owners n i hn).1
  rcases hn with ha | hp | hl
  · have hslot : n ∈ s.activeSlots i := List.mem_filter.2 ⟨hmem, decide_eq_true ha⟩
    have := List.length_pos_of_mem hslot
    omega
  · have hslot : n ∈ s.planSlots i := List.mem_filter.2 ⟨hmem, decide_eq_true hp⟩
    have := List.length_pos_of_mem hslot
    omega
  · rw [(SlotMap.pendingNames_iff h.follows).2 ⟨n, hl⟩] at hlists
    nomatch hlists

/-- `t` is `s` with record `i` cleared and in the queue `q`, and its owner `a` told (R26, R29). -/
structure ClearedFrom (i a : Nat) (gen : BitVec 4) (q : List Nat) (s t : State) : Prop where
  map : t.map = s.map
  timer : t.timer = s.timer
  engine : t.engine = s.engine
  queue : t.freeQueue = q
  self : t.grant i = Grant.freeWith gen
  other : ∀ j, j ≠ i → t.grant j = s.grant j
  station : ∀ b, t.station b = if b = a then { s.station a with held := (s.station a).held - 1 } else s.station b

theorem ClearedFrom.slots {i a : Nat} {gen : BitVec 4} {q : List Nat} {t : State} (hc : ClearedFrom i a gen q s t) (j : Nat) :
    t.planSlots j = s.planSlots j ∧ t.activeSlots j = s.activeSlots j := by
  simp only [State.planSlots, State.activeSlots, State.payload, State.planAt, State.activeAt, hc.map, hc.timer]
  exact ⟨rfl, rfl⟩

theorem ClearedFrom.derived {i a : Nat} {gen : BitVec 4} {q : List Nat} {t : State} (hc : ClearedFrom i a gen q s t)
    {j : Nat} (hj : j ≠ i) : t.derived j = s.derived j := by
  obtain ⟨hplan, hactive⟩ := hc.slots j
  have hg := hc.other j hj
  exact State.derived_congr (by rw [hg]) (by rw [hg]) (by rw [hg]) (by rw [hc.map]) hplan hactive

theorem ClearedFrom.rosterCounts {i a : Nat} {gen : BitVec 4} {q : List Nat} {t : State} (hc : ClearedFrom i a gen q s t)
    (hlt : i < Config.grantCount) (hfree : (s.grant i).state ≠ .free) (howner : (s.grant i).owner = some a)
    (hplan : (s.grant i).planCount = 0) (h : s.rosterCounts) : t.rosterCounts := by
  have hnone : ∀ b, t.holds b i = false := fun b => by
    rw [State.holds, hc.self]
    rfl
  have hholds : ∀ b, s.holds b i = true ↔ b = a := fun b => by
    rw [State.holds_iff, howner]
    exact ⟨fun hb => (Option.some.inj hb.2).symm, fun hb => ⟨hfree, by rw [hb]⟩⟩
  refine State.rosterCounts_of_update hlt h hc.other (fun b => ?_) (fun b => ?_) (fun b => ?_)
  · rw [hnone, hc.station]
    by_cases hb : b = a
    · subst hb
      have hmem : i ∈ s.recordsOf b := List.mem_filter.2 ⟨List.mem_range.2 hlt, (hholds b).2 rfl⟩
      have := List.length_pos_of_mem hmem
      rw [← (h b).1] at this
      simp only [(hholds b).2 rfl, if_true, Bool.false_eq_true, if_false]
      omega
    · have : ¬ s.holds b i = true := mt (hholds b).1 hb
      simp only [if_neg hb, if_neg this, Bool.false_eq_true, if_false]
  · have hroom := (h b).2.1
    rw [hc.station]
    split
    · rename_i hb
      subst hb
      exact (Nat.sub_le _ _).trans hroom
    · exact hroom
  · rw [hnone, hc.station, hplan]
    simp only [ite_self, Bool.false_eq_true, if_false]
    split
    · rename_i hb
      rw [hb]
    · rfl

/-- A record in use that is named nowhere may be cleared and queued, its owner told (R26, R29). -/
theorem State.Claiming.cleared_from (h : s.Claiming T new) {i a : Nat} {gen : BitVec 4} {q : List Nat} {t : State}
    (hc : ClearedFrom i a gen q s t) (hfree : (s.grant i).state ≠ .free) (howner : (s.grant i).owner = some a)
    (hnames : ∀ n, ¬ s.map.namesAt n i) (hplan : (s.grant i).planCount = 0)
    (hactive : (s.grant i).activeCount = 0) (hq : q.Nodup ∧ ∀ j, j ∈ q ↔ j = i ∨ j ∈ s.freeQueue)
    (hplacing : s.engine.context = none ∨ (s.grant i).state ≠ .placing) : t.Claiming (fun j => T j ∧ j ≠ i) new := by
  obtain ⟨hlt, -⟩ := h.derived i hfree
  have hne : ∀ j, (t.grant j).state ≠ .free → j ≠ i := by
    rintro j hj rfl
    rw [hc.self] at hj
    exact hj rfl
  refine ⟨?_, fun j => ?_, fun n j hn => ?_, fun j hj => ?_, fun j hj => ?_, ⟨?_, fun j => ?_⟩, ?_, ?_, ?_⟩
  · rw [hc.map]
    exact h.follows
  · obtain ⟨hp, ha⟩ := h.counts j
    obtain ⟨hps, has⟩ := hc.slots j
    rw [hps, has]
    by_cases hj : j = i
    · subst hj
      rw [hc.self]
      exact ⟨hplan.symm.trans hp, hactive.symm.trans ha⟩
    · rw [hc.other j hj]
      exact ⟨hp, ha⟩
  · rw [hc.map] at hn
    have hji : j ≠ i := by
      rintro rfl
      exact hnames n hn
    rw [State.payload, hc.timer, hc.other j hji]
    exact h.owners n j hn
  · have hji := hne j hj
    rw [hc.derived hji]
    rw [hc.other j hji] at hj ⊢
    exact ⟨(h.derived j hj).1, (h.derived j hj).2.imp_left (fun hT => ⟨hT, hji⟩)⟩
  · by_cases hji : j = i
    · subst hji
      rw [hc.self]
      rfl
    · rw [hc.other j hji] at hj ⊢
      exact h.cleared j hj
  · rw [hc.queue]
    exact hq.1
  · rw [hc.queue, hq.2, h.queue.2]
    by_cases hji : j = i
    · subst hji
      rw [hc.self]
      exact iff_of_true (.inl rfl) ⟨hlt, rfl⟩
    · rw [hc.other j hji]
      exact ⟨fun hj => hj.resolve_left hji, .inr⟩
  · exact hc.rosterCounts hlt hfree howner hplan h.roster
  · refine State.ownersPresent_congr (s := s) (fun j hj => ?_) (fun b hb => ?_) h.present
    · have hji := hne j hj
      rw [hc.other j hji] at hj ⊢
      exact ⟨hj, rfl⟩
    · rw [hc.station]
      split
      · rename_i hba
        rwa [hba] at hb
      · exact hb
  · rcases hplacing with hidle | hnot
    · exact State.placementHolds_of_idle (hc.engine ▸ hidle)
    · refine State.placementHolds_congr (s := s) (by rw [hc.engine]) (by rw [hc.timer]) (fun j hj => ?_) (fun g hg => ?_)
        h.placement
      · have hji : j ≠ i := by
          rintro rfl
          exact hnot hj
        rw [hc.other j hji]
        exact ⟨hj, rfl⟩
      · rw [State.handlePasses_iff] at hg ⊢
        rwa [hc.other _ (hne _ hg.2.1)] at hg

theorem State.Claiming.clear (h : s.Claiming T new) {i : Nat} {q : List Nat} (gen : BitVec 4 → BitVec 4)
    (hfree : (s.grant i).state ≠ .free) (hnames : ∀ n, ¬ s.map.namesAt n i) (hplan : (s.grant i).planCount = 0)
    (hactive : (s.grant i).activeCount = 0) (hq : q.Nodup ∧ ∀ j, j ∈ q ↔ j = i ∨ j ∈ s.freeQueue)
    (hplacing : s.engine.context = none ∨ (s.grant i).state ≠ .placing) :
    (State.holdOneFewer (s.grant i).owner { (s.updGrant i (fun g => Grant.freeWith (gen g.generation))) with
      freeQueue := q }).Claiming (fun j => T j ∧ j ≠ i) new := by
  obtain ⟨a, howner, -⟩ := State.ownersPresent_iff.1 h.present i hfree
  rw [howner]
  have hc : ClearedFrom i a (gen (s.grant i).generation) q s (State.updStation a (fun r => { r with held := r.held - 1 })
      { (s.updGrant i (fun g => Grant.freeWith (gen g.generation))) with freeQueue := q }) :=
    ⟨rfl, rfl, rfl, rfl, s.grant_updGrant_same i (fun g => Grant.freeWith (gen g.generation)),
      fun _ hj => s.grant_updGrant_other (fun g => Grant.freeWith (gen g.generation)) hj,
      fun b => s.station_updStation a b (fun r => { r with held := r.held - 1 })⟩
  exact State.Claiming.departIfDone (h.cleared_from hc hfree howner hnames hplan hactive hq hplacing) a

theorem map_departIfDone (a : Nat) (s : State) : (s.departIfDone a).map = s.map := by
  unfold State.departIfDone
  split <;> rfl

theorem map_holdOneFewer (o : Option Nat) (s : State) : (s.holdOneFewer o).map = s.map := by
  cases o with
  | none => rfl
  | some a =>
    rw [State.holdOneFewer, map_departIfDone]
    rfl

theorem timer_holdOneFewer (o : Option Nat) (s : State) : (s.holdOneFewer o).timer = s.timer :=
  (kept_timer s.timer).holdOneFewer o rfl

theorem map_freeRecord (s : State) (i : Nat) : (s.freeRecord i).map = s.map := by
  unfold State.freeRecord
  dsimp only
  rw [map_holdOneFewer]
  rfl

theorem timer_freeRecord (s : State) (i : Nat) : (s.freeRecord i).timer = s.timer := by
  unfold State.freeRecord
  dsimp only
  rw [timer_holdOneFewer]
  rfl

theorem derived_freeRecord_other {i j : Nat} (hj : j ≠ i) : (s.freeRecord i).derived j = s.derived j := by
  have hg : (s.freeRecord i).grant j = s.grant j := by rw [grant_freeRecord, if_neg hj]
  refine State.derived_congr (by rw [hg]) (by rw [hg]) (by rw [hg]) (by rw [map_freeRecord]) ?_ ?_
  · simp only [State.planSlots, State.payload, State.planAt, map_freeRecord, timer_freeRecord]
    rfl
  · simp only [State.activeSlots, State.payload, State.activeAt, map_freeRecord, timer_freeRecord]
    rfl

theorem State.Claiming.freeIfDue (h : s.Claiming T new) (i : Nat) : (s.freeIfDue i).Claiming (fun j => T j
    ∧ (j = i → s.derived i ≠ .free)) new := by
  unfold State.freeIfDue
  split
  · rename_i hdue
    obtain ⟨hfree, hd⟩ := hdue
    obtain ⟨hplacing, hplan, hactive, -⟩ := derived_eq_free_iff.1 hd
    have hnot : i ∉ s.freeQueue := fun hi => hfree ((h.queue.2 i).1 hi).2
    refine (h.clear (q := s.freeQueue ++ [i]) (· + 1) hfree (h.not_namesAt hd) hplan hactive ⟨?_, fun j => ?_⟩
      (.inr hplacing)).mono (fun j _ hj => ⟨hj.1, fun hji => absurd hji hj.2⟩)
    · exact List.nodup_append.2 ⟨h.queue.1, List.nodup_singleton i, fun x hx y hy hxy =>
        hnot (List.mem_singleton.1 hy ▸ hxy ▸ hx)⟩
    · rw [List.mem_append, List.mem_singleton, or_comm]
  · rename_i hdue
    refine { h with derived := fun j hj => ⟨(h.derived j hj).1, ?_⟩ }
    refine (h.derived j hj).2.imp_left (fun hT => ⟨hT, fun hji hd => hdue ⟨?_, hd⟩⟩)
    rwa [← hji]

theorem State.Claiming.frees (h : s.Claiming T new) (l : List Nat) (hT : ∀ j, T j → s.derived j = .free) :
    (l.foldl (fun s i => s.freeIfDue i) s).Claiming (fun j => T j ∧ j ∉ l) new := by
  induction l generalizing s T with
  | nil => exact h.mono (fun _ _ hj => ⟨hj, nofun⟩)
  | cons i l ih =>
    have hi : (s.freeIfDue i).Claiming (fun j => T j ∧ j ≠ i) new :=
      (h.freeIfDue i).mono (fun j _ ⟨hj, hd⟩ => ⟨hj, fun hji => hd hji (hji ▸ hT j hj)⟩)
    refine (ih hi (fun j ⟨hj, hji⟩ => ?_)).mono (fun j _ ⟨⟨hj, hji⟩, hl⟩ => ⟨hj, ?_⟩)
    · unfold State.freeIfDue
      split
      · rw [derived_freeRecord_other hji]
        exact hT j hj
      · exact hT j hj
    · simp [hji, hl]

/-! ## The completion (R44) -/

/-- The records that a completion goes through, in order. -/
def touchedIds (touched : List Nat) : List Nat := (List.range Config.grantCount).filter (fun i => touched.contains i)

theorem mem_touchedIds {touched : List Nat} {i : Nat} : i ∈ touchedIds touched ↔ i < Config.grantCount ∧ i ∈ touched := by
  simp [touchedIds]

theorem complete_eq (touched : List Nat) (s : State) : s.complete touched =
    (touchedIds touched).foldl (fun s i => s.freeIfDue i) ((touchedIds touched).foldl (fun s i => s.rederive i) s) := rfl

/-- The completion brings a claim's records to their derived states, and frees those due: the books agree again. -/
theorem State.Claiming.complete (h : s.Claiming T noRecord) {touched : List Nat} (hT : ∀ i, T i → i ∈ touched) :
    (s.complete touched).Claiming noRecord noRecord := by
  obtain ⟨hr, hd⟩ := h.rederives (touchedIds touched)
  have hdue : ((touchedIds touched).foldl (fun s i => s.rederive i) s).Claiming
      (fun j => s.derived j = .free ∧ j ∈ touchedIds touched) noRecord := by
    refine hr.mono (fun j hj ⟨hTj, hfree⟩ => ?_)
    have hmem := mem_touchedIds.2 ⟨hj, hT j hTj⟩
    exact ⟨hfree hmem, hmem⟩
  rw [complete_eq]
  exact (hdue.frees _ (fun j hj => (hd j).trans hj.1)).mono (fun j _ hj => hj.2 hj.1.2)

/-! ## A retire claim (R45, R46) -/

theorem State.Claiming.clearPlans (h : s.Claiming T new) {l : List Nat} (hT : ∀ i ∈ l, T i) :
    (l.foldl (fun s i => s.clearPlan i) s).Claiming T new := by
  induction l generalizing s with
  | nil => exact h
  | cons i l ih => exact ih (h.clearPlan (hT i (by simp))) (fun j hj => hT j (by simp [hj]))

theorem State.Claiming.retire (h : s.Claiming noRecord noRecord) (l : List Nat) (why : Option RevokeReason) :
    (s.retire l why).1.Claiming noRecord noRecord := by
  unfold State.retire
  dsimp only
  generalize (List.range Config.grantCount).filter (fun i => l.contains i && (s.grant i).state.retirable) = ids
  have hclaim : (ids.foldl (fun s i => s.clearPlan i) s).Claiming (· ∈ ids) noRecord :=
    (h.mono nofun).clearPlans (fun _ hi => hi)
  exact foldl_keeps (P := fun s => s.Claiming noRecord noRecord)
    (fun _ _ hs => hs.side (sameBooks_noticeRevoked _ _ _ _ _)) _ (hclaim.complete (fun _ hi => hi))

end Sys2Proof.Machine
end

section
/-! The commit, the reservation, the return of a record, the swap and the seal (R29, R47, R49, R50, R63): each keeps the
books. -/

namespace Sys2Proof.Machine

variable {T T' new new' : Nat → Prop} {s : State}

/-! ## The commit does not look at the engine -/

section
variable (m : Mask) (s : State)

@[simp] theorem mask_victimStands (h : Handle) : (s.mask m).victimStands h = s.victimStands h := rfl

@[simp] theorem mask_retireVictim (h : Handle) : (s.mask m).retireVictim h = (s.retireVictim h).mask m := by
  simp only [State.retireVictim, mask_ite, mask_victimStands, mask_grant, mask_clearPlan, mask_noticeRevoked]

@[simp] theorem mask_advanceCommit (i : Nat) : (s.mask m).advanceCommit i = (s.advanceCommit i).mask m := rfl

@[simp] theorem mask_takeSlots (i : Nat) (t : List Nat) : (s.mask m).takeSlots i t = (s.takeSlots i t).mask m := by
  unfold State.takeSlots
  rw [foldl_mask m s (fun s n => mask_recordChange m s n (some i)) t]
  exact foldl_mask m _ (fun s n => mask_recordChange m s n none) _

@[simp] theorem mask_commitClaim (i : Nat) (t : List Nat) (v : List Handle) (f : Grant → Grant) :
    (s.mask m).commitClaim i t v f = (s.commitClaim i t v f).mask m := by
  unfold State.commitClaim
  rw [foldl_mask m s (fun s h => mask_retireVictim m s h) v]
  dsimp only
  rw [mask_advanceCommit, mask_takeSlots, mask_updGrant, mask_complete]
  rfl

@[simp] theorem mask_returnRecord (i : Nat) : (s.mask m).returnRecord i = (s.returnRecord i).mask m :=
  mask_holdOneFewer m { (s.updGrant i (fun g => Grant.freeWith g.generation)) with freeQueue := i :: s.freeQueue } _

end

/-- The engine IDLE, all else as it is. -/
def Mask.idle : Mask := { engine := fun e => { e with context := none }, staging := id, requests := id }

theorem endPlacement_eq_mask (s : State) : s.endPlacement = s.mask .idle := rfl

/-! ## Victims (R47, R80) -/

theorem grant_clearPlan_but_count (s : State) (i j : Nat) :
    (s.clearPlan i).grant j = { s.grant j with planCount := ((s.clearPlan i).grant j).planCount } := by
  rw [grant_clearPlan]
  split
  · rename_i hj
    rw [hj]
  · rfl

/-- What the retirement of a victim leaves of the records and of PLAN. -/
theorem retireVictim_leaves (s : State) (v : Handle) :
    (∀ j, (s.retireVictim v).grant j = { s.grant j with planCount := ((s.retireVictim v).grant j).planCount })
      ∧ ∀ n j, (s.retireVictim v).planAt n = some j → s.planAt n = some j := by
  unfold State.retireVictim
  split
  · have hb := sameBooks_noticeRevoked (some .preempted) (s.grant v.index.toNat).owner v v.index.toNat
      (s.clearPlan v.index.toNat)
    refine ⟨fun j => ?_, fun n j hn => ?_⟩
    · rw [hb.grant_eq]
      exact grant_clearPlan_but_count s _ j
    · have hplan : State.planAt (State.noticeRevoked (some .preempted) (s.grant v.index.toNat).owner v v.index.toNat
          (s.clearPlan v.index.toNat)) n = (s.clearPlan v.index.toNat).planAt n := by
        rw [noticeRevoked_eq]
        rfl
      rw [hplan, planAt_clearPlan] at hn
      split at hn
      · nomatch hn
      · exact hn
  · exact ⟨fun _ => rfl, fun _ _ hn => hn⟩

theorem victimStands_retireVictim (s : State) (v g : Handle) : (s.retireVictim v).victimStands g = s.victimStands g := by
  unfold State.victimStands State.handlePasses
  rw [(retireVictim_leaves s v).1]

theorem Kept.retireVictim {P : State → Prop} (K : Kept P) (v : Handle) (h : P s) : P (s.retireVictim v) := by
  unfold State.retireVictim
  split
  · exact K.noticeRevoked _ _ _ _ (K.clearPlan _ h)
  · exact h

theorem State.Claiming.retireVictim (h : s.Claiming T new) {v : Handle} (hT : s.victimStands v = true → T v.index.toNat) :
    (s.retireVictim v).Claiming T new := by
  unfold State.retireVictim
  split
  · rename_i hstands
    exact (h.clearPlan (hT hstands)).side (sameBooks_noticeRevoked _ _ _ _ _)
  · exact h

/-- The retirement of a commit's victims, and what it leaves of the records and of PLAN. -/
theorem State.Claiming.retireVictims (h : s.Claiming T new) {l : List Handle}
    (hT : ∀ v ∈ l, s.victimStands v = true → T v.index.toNat) :
    (l.foldl (fun s v => s.retireVictim v) s).Claiming T new
      ∧ (∀ j, ((l.foldl (fun s v => s.retireVictim v) s).grant j).state = (s.grant j).state)
      ∧ ∀ n j, (l.foldl (fun s v => s.retireVictim v) s).planAt n = some j → s.planAt n = some j := by
  induction l generalizing s with
  | nil => exact ⟨h, fun _ => rfl, fun _ _ hn => hn⟩
  | cons v l ih =>
    obtain ⟨hgrant, hplan⟩ := retireVictim_leaves s v
    obtain ⟨hc, hs, hp⟩ := ih (h.retireVictim (hT v (by simp))) (fun g hg hst => by
      rw [victimStands_retireVictim] at hst
      exact hT g (by simp [hg]) hst)
    refine ⟨hc, fun j => ?_, fun n j hn => hplan n j (hp n j hn)⟩
    rw [List.foldl_cons, hs, hgrant]

/-! ## The commit (R47) -/

theorem payload_foldl_recordChange (l : List Nat) (y : Owner) (s : State) :
    (l.foldl (fun s n => s.recordChange n y) s).payload = s.payload := by
  unfold State.payload
  rw [foldl_keeps (P := fun u => u.timer = s.timer) (fun n u hu => (timer_recordChange u n y).trans hu) l rfl]

theorem state_foldl_recordChange (l : List Nat) (y : Owner) (j : Nat) (s : State) :
    ((l.foldl (fun s n => s.recordChange n y) s).grant j).state = (s.grant j).state :=
  foldl_keeps (P := fun u => (u.grant j).state = (s.grant j).state) (fun n u hu => (state_recordChange u n y j).trans hu) l
    rfl

theorem State.Claiming.takeSlots (h : s.Claiming T new) {i : Nat} {t : List Nat} (ht : ∀ n ∈ t, n ∈ s.payload)
    (hx : ∀ n ∈ t, ∀ j, s.planAt n = some j → T j)
    (hi : T i ∧ i < Config.grantCount ∧ (s.grant i).state ≠ .free ∧ ((s.grant i).state = .placing → new i)) :
    (s.takeSlots i t).Claiming T new := by
  have htaken := h.recordChanges (y := some i) ht hx (fun j hj => Option.some.inj hj ▸ hi)
  refine htaken.recordChanges (fun n hn => ?_) (fun n hn j hj => ?_) nofun
  · exact (List.mem_filter.1 (List.mem_filter.1 hn).1).1
  · have hplan := of_decide_eq_true (List.mem_filter.1 (List.mem_filter.1 hn).1).2
    rw [hplan] at hj
    exact Option.some.inj hj ▸ hi.1

theorem state_takeSlots (s : State) (i : Nat) (t : List Nat) (j : Nat) :
    ((s.takeSlots i t).grant j).state = (s.grant j).state := by
  unfold State.takeSlots
  dsimp only
  rw [state_foldl_recordChange, state_foldl_recordChange]

theorem engine_takeSlots (s : State) (i : Nat) (t : List Nat) : (s.takeSlots i t).engine = s.engine := by
  have record : ∀ (l : List Nat) (y : Owner) (u : State), (l.foldl (fun s n => s.recordChange n y) u).engine = u.engine :=
    fun l y u => foldl_keeps (P := fun w => w.engine = u.engine)
      (fun n w hw => ((kept_engine w.engine).recordChange n y rfl).trans hw) l rfl
  unfold State.takeSlots
  dsimp only
  rw [record, record]

/-- The record placed is PLACING no more (R20), and its state is for the completion to derive. -/
theorem State.Claiming.placed (h : s.Claiming T (· = i)) {f : Grant → Grant} (hidle : s.engine.context = none)
    (hi : T i ∧ (s.grant i).state ≠ .free) (hf : Grant.KeepsPlace f) :
    (s.updGrant i (fun g => (f g).placed)).Claiming T noRecord := by
  obtain ⟨hstate, howner, hplan, hactive, hgen⟩ := hf (s.grant i)
  have hplaced : (f (s.grant i)).placed.state ≠ .placing ∧ (f (s.grant i)).placed.state ≠ .free := by
    unfold Grant.placed
    dsimp only
    split
    · decide
    · exact ⟨‹_›, by rw [hstate]; exact hi.2⟩
  refine h.updGrant hi.2 hplaced.2 howner hplan hactive hgen (.inl hidle) (fun _ _ hT => hT) (.inl hi.1) (fun j hj => ?_)
  have hji : j ≠ i := by
    rintro rfl
    rw [State.grant_updGrant_same] at hj
    exact hplaced.1 hj
  rw [State.grant_updGrant_other _ _ hji] at hj
  exact ⟨hj, hji⟩

/-- The commit claim of a record in use, on payload slots, keeps the books (R47). -/
theorem State.Claiming.commitClaim (h : s.Claiming noRecord noRecord) {i : Nat} {t : List Nat} {v : List Handle}
    {f : Grant → Grant} (hidle : s.engine.context = none) (hi : i < Config.grantCount ∧ (s.grant i).state ≠ .free)
    (ht : ∀ n ∈ t, n ∈ s.payload) (hf : Grant.KeepsPlace f) : (s.commitClaim i t v f).Claiming noRecord noRecord := by
  have hTi : i ∈ s.touchedBy i t v := by simp [State.touchedBy]
  have hTv : ∀ g ∈ v, s.victimStands g = true → g.index.toNat ∈ s.touchedBy i t v := fun g hg hst => by
    simp only [State.touchedBy, List.cons_append, List.mem_cons, List.mem_append, List.mem_map, List.mem_filter]
    exact .inr (.inl ⟨g, ⟨hg, hst⟩, rfl⟩)
  have hTt : ∀ n ∈ t, ∀ j, s.planAt n = some j → j ∈ s.touchedBy i t v := fun n hn j hj => by
    simp only [State.touchedBy, List.cons_append, List.mem_cons, List.mem_append, List.mem_filterMap]
    exact .inr (.inr ⟨n, hn, hj⟩)
  unfold State.commitClaim
  dsimp only
  generalize s.touchedBy i t v = touched at *
  obtain ⟨hc, hstate, hplan⟩ := ((h.mono (T' := (· ∈ touched)) nofun).mono_new (new' := (· = i)) nofun).retireVictims hTv
  have htimer : (v.foldl (fun s g => s.retireVictim g) s).timer = s.timer :=
    foldl_keeps (P := fun u => u.timer = s.timer) (fun g _ hu => (kept_timer s.timer).retireVictim g hu) v rfl
  have hengine : (v.foldl (fun s g => s.retireVictim g) s).engine = s.engine :=
    foldl_keeps (P := fun u => u.engine = s.engine) (fun g _ hu => (kept_engine s.engine).retireVictim g hu) v rfl
  generalize v.foldl (fun s g => s.retireVictim g) s = u at *
  have hfree : (u.grant i).state ≠ .free := by rw [hstate]; exact hi.2
  have hstates : ∀ j, ((u.advanceCommit i).grant j).state = (u.grant j).state := fun j => by
    unfold State.advanceCommit
    rw [State.grant_updGrant]
    split
    · rename_i hj
      rw [hj]
      rfl
    · rfl
  have hadvanced : (u.advanceCommit i).Claiming (· ∈ touched) (· = i) :=
    (hc.side (t := { u with commitCounter := u.commitCounter + 1 }) ⟨rfl, rfl, rfl, rfl, rfl, rfl, rfl⟩).keepsPlace
      (f := fun g => { g with commitSeq := u.commitCounter + 1 }) (.inl hfree) (fun _ => ⟨rfl, rfl, rfl, rfl, rfl⟩)
  have htaken : ((u.advanceCommit i).takeSlots i t).Claiming (· ∈ touched) (· = i) :=
    hadvanced.takeSlots (fun n hn => by
      show n ∈ u.payload
      rw [State.payload, htimer]
      exact ht n hn) (fun n hn j hj => hTt n hn j (hplan n j hj))
      ⟨hTi, hi.1, by rw [hstates]; exact hfree, fun _ => rfl⟩
  refine (htaken.placed ?_ ⟨hTi, ?_⟩ hf).complete (fun _ hj => hj)
  · rw [engine_takeSlots]
    exact (congrArg Engine.context hengine).trans hidle
  · rw [state_takeSlots, hstates]
    exact hfree

/-! ## The return and the reservation of a record (R18, R29) -/

/-- A record that nothing names has no slot in either map. -/
theorem State.Claiming.counts_of_unnamed (h : s.Claiming T new) {i : Nat} (hn : ∀ n, ¬ s.map.namesAt n i) :
    (s.grant i).planCount = 0 ∧ (s.grant i).activeCount = 0 := by
  obtain ⟨hp, ha⟩ := h.counts i
  rw [hp, ha]
  refine ⟨List.length_eq_zero_iff.2 (List.filter_eq_nil_iff.2 fun n _ hd => hn n (.inr (.inl (of_decide_eq_true hd)))),
    List.length_eq_zero_iff.2 (List.filter_eq_nil_iff.2 fun n _ hd => hn n (.inl (of_decide_eq_true hd)))⟩

theorem State.Claiming.endPlacement (h : s.Claiming T new) : s.endPlacement.Claiming T new :=
  ⟨h.follows, h.counts, h.owners, h.derived, h.cleared, h.queue, h.roster, h.present, nofun⟩

/-- A PLACING record goes back to the head of the Free Record Queue (R29). -/
theorem State.Claiming.returnRecord (h : s.Claiming noRecord noRecord) {i : Nat} (hi : (s.grant i).state = .placing) :
    (s.returnRecord i).endPlacement.Claiming noRecord noRecord := by
  have hfree : (s.grant i).state ≠ .free := by rw [hi]; decide
  have hnames : ∀ n, ¬ s.map.namesAt n i := fun n hn => (h.owners n i hn).2.2.2 hi
  obtain ⟨hplan, hactive⟩ := h.counts_of_unnamed hnames
  have hnot : i ∉ s.freeQueue := fun hq => hfree ((h.queue.2 i).1 hq).2
  rw [endPlacement_eq_mask, ← mask_returnRecord, ← endPlacement_eq_mask]
  exact (h.endPlacement.clear (q := i :: s.freeQueue) id hfree hnames hplan hactive
    ⟨List.nodup_cons.2 ⟨hnot, h.queue.1⟩, fun j => List.mem_cons⟩ (.inl rfl)).mono (fun _ _ hT => hT.1)

/-- The books do not see the last kind taken, and a placement that holds may be begun (R59, R63). -/
theorem State.Claiming.begin (h : s.Claiming T new) {c : Context} (hc : (s.begin c).placementHolds) :
    (s.begin c).Claiming T new :=
  ⟨h.follows, h.counts, h.owners, h.derived, h.cleared, h.queue, h.roster, h.present, hc⟩

theorem State.Claiming.noteKind (h : s.Claiming T new) (k : WorkKind) : (s.noteKind k).Claiming T new :=
  ⟨h.follows, h.counts, h.owners, h.derived, h.cleared, h.queue, h.roster, h.present, h.placement⟩

/-- What a reservation for station `a` writes over the record `old` (R18). -/
def Grant.reservedOver (g : Grant) (a : Nat) (old : Grant) : Grant :=
  { g with generation := old.generation, state := .placing, owner := some a }

/-- `t` is `s` with the FREE record `i` reserved as `g` for station `a` (R18, R28). -/
structure ReservedFrom (i a : Nat) (g : Grant) (s t : State) : Prop where
  map : t.map = s.map
  timer : t.timer = s.timer
  queue : t.freeQueue = s.freeQueue.tail
  self : t.grant i = g.reservedOver a (s.grant i)
  other : ∀ j, j ≠ i → t.grant j = s.grant j
  station : ∀ b, t.station b = if b = a then { s.station a with held := (s.station a).held + 1 } else s.station b

theorem reservedFrom_placeNew (k : Nat → PlacementKind) (g : Grant) (a : Nat) (s : State) :
    ReservedFrom (s.freeQueue.headD 0) a g s (s.placeNew k g a) :=
  ⟨rfl, rfl, rfl, s.grant_updGrant_same _ (g.reservedOver a), fun _ hj => s.grant_updGrant_other (g.reservedOver a) hj,
    fun b => s.station_updStation a b (fun r => { r with held := r.held + 1 })⟩

variable {i a : Nat} {g : Grant} {t : State}

theorem ReservedFrom.slots (hr : ReservedFrom i a g s t) (j : Nat) :
    t.planSlots j = s.planSlots j ∧ t.activeSlots j = s.activeSlots j := by
  simp only [State.planSlots, State.activeSlots, State.payload, State.planAt, State.activeAt, hr.map, hr.timer]
  exact ⟨rfl, rfl⟩

theorem ReservedFrom.rosterCounts (hr : ReservedFrom i a g s t) (hi : i < Config.grantCount ∧ (s.grant i).state = .free)
    (hroom : (s.station a).held < Config.grantLimit) (hplan : g.planCount = 0) (h : s.rosterCounts) : t.rosterCounts := by
  have hnone : ∀ b, s.holds b i = false := fun b => by simp [State.holds, hi.2]
  have hholds : ∀ b, t.holds b i = true ↔ b = a := fun b => by
    rw [State.holds_iff, hr.self]
    exact ⟨fun hb => (Option.some.inj hb.2).symm, fun hb => ⟨nofun, congrArg some hb.symm⟩⟩
  refine State.rosterCounts_of_update hi.1 h hr.other (fun b => ?_) (fun b => ?_) (fun b => ?_)
  · rw [hnone, hr.station]
    by_cases hb : b = a
    · rw [(hholds b).2 hb]
      simp [hb]
    · have : ¬ t.holds b i = true := mt (hholds b).1 hb
      simp only [if_neg hb, if_neg this, Bool.false_eq_true, if_false]
  · rw [hr.station]
    split
    · exact hroom
    · exact (h b).2.1
  · have hcount : (t.grant i).planCount = 0 := by rw [hr.self]; exact hplan
    rw [hnone, hr.station, hcount]
    simp only [ite_self, Bool.false_eq_true, if_false]
    split
    · rename_i hb
      rw [hb]
    · rfl

/-- A reservation of the head of the Free Record Queue keeps the books, once its placement is in flight (R18, R63). -/
theorem State.Claiming.reserved (h : s.Claiming noRecord noRecord) (hr : ReservedFrom i a g s t)
    (hq : s.freeQueue.head? = some i) (hmember : (s.station a).state.mayOwn = true)
    (hroom : (s.station a).held < Config.grantLimit) (hg : g.planCount = 0 ∧ g.activeCount = 0)
    (hplacement : t.placementHolds) : t.Claiming noRecord noRecord := by
  obtain ⟨rest, hrest⟩ : ∃ rest, s.freeQueue = i :: rest := List.head?_eq_some_iff.1 hq
  have hi : i < Config.grantCount ∧ (s.grant i).state = .free := (h.queue.2 i).1 (by simp [hrest])
  have hnodup := h.queue.1
  rw [hrest, List.nodup_cons] at hnodup
  have hnames : ∀ n, ¬ s.map.namesAt n i := fun n hn => (h.owners n i hn).2.2.1 hi.2
  refine ⟨?_, fun j => ?_, fun n j hn => ?_, fun j hj => ?_, fun j hj => ?_, ⟨?_, fun j => ?_⟩, ?_, ?_, hplacement⟩
  · rw [hr.map]
    exact h.follows
  · obtain ⟨hp, ha⟩ := hr.slots j
    rw [hp, ha]
    by_cases hj : j = i
    · subst hj
      obtain ⟨hp, ha⟩ := h.counts_of_unnamed hnames
      obtain ⟨hp', ha'⟩ := h.counts j
      rw [hr.self]
      exact ⟨hg.1.trans (hp.symm.trans hp'), hg.2.trans (ha.symm.trans ha')⟩
    · rw [hr.other j hj]
      exact h.counts j
  · rw [hr.map] at hn
    have hji : j ≠ i := by
      rintro rfl
      exact hnames n hn
    rw [State.payload, hr.timer, hr.other j hji]
    exact h.owners n j hn
  · by_cases hji : j = i
    · subst hji
      have hp : (t.grant j).state = .placing := by
        rw [hr.self]
        rfl
      exact ⟨hi.1, .inr (hp.trans (derived_of_placing hp).symm)⟩
    · obtain ⟨hp, ha⟩ := hr.slots j
      have hgj := hr.other j hji
      rw [State.derived_congr (s := s) (by rw [hgj]) (by rw [hgj]) (by rw [hgj]) (by rw [hr.map]) hp ha]
      rw [hgj] at hj ⊢
      exact h.derived j hj
  · have hji : j ≠ i := by
      rintro rfl
      rw [hr.self] at hj
      nomatch hj
    rw [hr.other j hji] at hj ⊢
    exact h.cleared j hj
  · rw [hr.queue, hrest]
    exact hnodup.2
  · have hmem := h.queue.2 j
    rw [hrest, List.mem_cons] at hmem
    rw [hr.queue, hrest, List.tail_cons]
    by_cases hji : j = i
    · subst hji
      rw [hr.self]
      exact iff_of_false hnodup.1 (fun hf => nomatch hf.2)
    · rw [hr.other j hji, ← hmem]
      exact (or_iff_right hji).symm
  · exact hr.rosterCounts hi hroom hg.1 h.roster
  · refine State.ownersPresent_iff.2 (fun j hj => ?_)
    have hstate : ∀ b, (t.station b).state = (s.station b).state := fun b => by
      rw [hr.station]
      split
      · rename_i hb
        rw [hb]
      · rfl
    simp only [hstate]
    by_cases hji : j = i
    · subst hji
      rw [hr.self]
      exact ⟨a, rfl, hmember⟩
    · rw [hr.other j hji] at hj ⊢
      exact State.ownersPresent_iff.1 h.present j hj

theorem StationState.mayOwn_of_inMembership {x : StationState} (h : x.inMembership = true) : x.mayOwn = true := by
  cases x <;> simp_all [StationState.inMembership, StationState.mayOwn]

/-- The slots that a search chooses are payload slots (R65 to R67, R73). -/
theorem search_mem_payload {self a n : Nat} {cls : BitVec 2} {find : (Nat → Bool) → Option (List Nat)} {s u : State}
    (hf : FindsSlots u.timer.code n find) {l : List Nat} {v : List Handle} (h : s.search self a cls find = .chosen l v) :
    ∀ m ∈ l, m ∈ u.payload := by
  obtain ⟨⟨avail, hfind⟩, -⟩ := search_eq_chosen h
  exact (hf avail l hfind).2.2

theorem State.Claiming.placeNew (h : s.Claiming noRecord noRecord) {k : Nat → PlacementKind} (hp : s.Placeable k g a) :
    (s.placeNew k g a).Claiming noRecord noRecord := by
  have hr := reservedFrom_placeNew k g a s
  have hq : s.freeQueue.head? = some (s.freeQueue.headD 0) := by
    cases hqueue : s.freeQueue with
    | nil => exact absurd hqueue hp.record
    | cons i rest => rfl
  refine h.reserved hr hq (StationState.mayOwn_of_inMembership hp.member) hp.room hp.unplaced ?_
  rintro _ ⟨⟩
  refine ⟨fun i hi => ?_, fun l v ho _ => ?_⟩
  · have hindex : i = s.freeQueue.headD 0 := by
      rcases hp.kind with ⟨l, rfl⟩ | ⟨q, l, rfl⟩
      · rcases hi with ⟨l', hi⟩ | ⟨q', l', hi⟩ <;> cases hi
        rfl
      · rcases hi with ⟨l', hi⟩ | ⟨q', l', hi⟩ <;> cases hi
        rfl
    rw [hindex, hr.self]
    exact ⟨((h.queue.2 _).1 (List.mem_of_mem_head? hq)).1, rfl, rfl⟩
  · exact search_mem_payload (findsSlots_freshSearch g.pattern hp.count.2) ho

theorem State.Claiming.beginResize (h : s.Claiming T new) {hd : Handle} {n : Nat}
    (hc : firstFailure (s.resizeChecks hd n) = none) : (s.begin (s.resizeContext hd n)).Claiming T new := by
  refine h.begin ?_
  rintro _ ⟨⟩
  refine ⟨fun i hi => ?_, fun l v ho _ => ?_⟩
  · rcases hi with ⟨l', hi⟩ | ⟨q', l', hi⟩ <;> cases hi
  · exact search_mem_payload (findsSlots_resizeSearch _ (slotsFor_planSlots s hd.index.toNat) (count_of_resizeChecks hc).2) ho

end Sys2Proof.Machine
end

section
/-! The swap and the seal keep the books (R49, R50), and with them every step (O59). -/

namespace Sys2Proof.Machine

variable {T new : Nat → Prop} {s : State}

/-! ## The swap: ACTIVE and activeCount follow every change (R49 step 1) -/

theorem grant_activeCountDown (s : State) (o : Owner) (j : Nat) : (s.activeCountDown o).grant j =
    if o = some j then { s.grant j with activeCount := (s.grant j).activeCount - 1 } else s.grant j := by
  cases o with
  | none => rfl
  | some i =>
    simp only [State.activeCountDown, State.grant_updGrant, Option.some.injEq, eq_comm (a := i)]
    split
    · rename_i hj
      rw [hj]
    · rfl

theorem grant_activeCountUp (s : State) (o : Owner) (j : Nat) : (s.activeCountUp o).grant j =
    if o = some j then { s.grant j with activeCount := (s.grant j).activeCount + 1 } else s.grant j := by
  cases o with
  | none => rfl
  | some i =>
    simp only [State.activeCountUp, State.grant_updGrant, Option.some.injEq, eq_comm (a := i)]
    split
    · rename_i hj
      rw [hj]
    · rfl

/-- The counts of a swap (R19, R49 step 1). -/
def State.countChanges (l : List (Nat × Change)) (s : State) : State :=
  l.foldl (fun s c => (s.activeCountDown c.2.fromOwner).activeCountUp c.2.toOwner) s

theorem swap_eq (e : Epoch) (s : State) : s.swap e =
    (((s.updMap (SlotMap.swapIn e)).countChanges (changesOf e.changes)).complete (namedIn e.changes)).raise .epoch := rfl

/-- The counts of a swap touch the records' activeCount only. -/
theorem grantsOnly_countChanges (l : List (Nat × Change)) (s : State) :
    s.countChanges l = { s with grants := (s.countChanges l).grants }
      ∧ ∀ j, (s.countChanges l).grant j = { s.grant j with activeCount := ((s.countChanges l).grant j).activeCount } := by
  induction l generalizing s with
  | nil => exact ⟨rfl, fun _ => rfl⟩
  | cons c l ih =>
    obtain ⟨hstate, hgrant⟩ := ih ((s.activeCountDown c.2.fromOwner).activeCountUp c.2.toOwner)
    have hone : (s.activeCountDown c.2.fromOwner).activeCountUp c.2.toOwner
        = { s with grants := ((s.activeCountDown c.2.fromOwner).activeCountUp c.2.toOwner).grants } := by
      cases c.2.fromOwner <;> cases c.2.toOwner <;> rfl
    refine ⟨?_, fun j => ?_⟩
    · have hcons : s.countChanges (c :: l)
          = ((s.activeCountDown c.2.fromOwner).activeCountUp c.2.toOwner).countChanges l := rfl
      rw [hcons]
      refine hstate.trans ?_
      generalize (State.countChanges l _).grants = g
      rw [hone]
    · refine (hgrant j).trans ?_
      rw [grant_activeCountUp, grant_activeCountDown]
      split_ifs <;> rfl

/-- The number of payload slots that a table gives record `j`. -/
def slotsIn (l : List Nat) (t : Table Owner) (j : Nat) : Nat := (l.filter (fun n => decide (t.get none n = some j))).length

/-- One slot's owner changes. -/
theorem slotsIn_put {l : List Nat} (hd : l.Nodup) {n : Nat} (hn : n ∈ l) (t : Table Owner) (y : Owner) (j : Nat) :
    slotsIn l (t.put none n y) j + (if t.get none n = some j then 1 else 0)
      = slotsIn l t j + (if y = some j then 1 else 0) := by
  have h := length_filter_update (p := fun m => decide ((t.put none n y).get none m = some j))
    (q := fun m => decide (t.get none m = some j)) hd hn (fun m hm => by rw [Table.get_put_other _ _ _ hm])
  simp only [Table.get_put_same, decide_eq_true_eq] at h
  exact h

/-- A change of a slot between no owners changes no count. -/
theorem slotsIn_put_none (l : List Nat) {n : Nat} {t : Table Owner} (hn : t.get none n = none) (j : Nat) :
    slotsIn l (t.put none n none) j = slotsIn l t j := by
  unfold slotsIn
  congr 1
  refine List.filter_congr (fun m _ => ?_)
  rw [Table.get_put]
  split
  · rename_i hm
    rw [hm, hn]
  · rfl

/-- activeCount is the number of slots in ACTIVE after the changes as before them (R19, R49). -/
theorem activeCount_countChanges {l : List Nat} (hd : l.Nodup) {changes : List (Nat × Change)} {t : Table Owner}
    (hslots : (changes.map Prod.fst).Nodup)
    (hchange : ∀ c ∈ changes, c.2.fromOwner = t.get none c.1 ∧ (c.1 ∈ l ∨ (c.2.fromOwner = none ∧ c.2.toOwner = none)))
    {j : Nat} (h : (s.grant j).activeCount = slotsIn l t j) : ((s.countChanges changes).grant j).activeCount
      = slotsIn l (changes.foldl (fun t c => t.put none c.1 c.2.toOwner) t) j := by
  induction changes generalizing s t with
  | nil => exact h
  | cons c changes ih =>
    obtain ⟨hfrom, hin⟩ := hchange c (by simp)
    rw [List.map_cons, List.nodup_cons] at hslots
    refine ih hslots.2 (fun d hdm => ?_) ?_
    · have hne : d.1 ≠ c.1 := fun he => hslots.1 (he ▸ List.mem_map_of_mem hdm)
      rw [Table.get_put_other _ _ _ hne]
      exact hchange d (by simp [hdm])
    · rw [grant_activeCountUp, grant_activeCountDown]
      dsimp only
      rcases hin with hmem | ⟨hnone, hnone'⟩
      · have hput := slotsIn_put hd hmem t c.2.toOwner j
        have hpos : c.2.fromOwner = some j → 1 ≤ slotsIn l t j := fun hf =>
          List.length_pos_of_mem (List.mem_filter.2 ⟨hmem, decide_eq_true (hfrom.symm.trans hf)⟩)
        rw [← hfrom] at hput
        by_cases hf : c.2.fromOwner = some j <;> by_cases ht : c.2.toOwner = some j <;> simp [hf, ht] at hput hpos ⊢ <;>
          omega
      · rw [hnone', slotsIn_put_none l (hfrom.symm.trans hnone), hnone]
        exact h

/-! ## The swap keeps the books (R49) -/

/-- The slots that a canonical list changes are distinct. -/
theorem nodup_changesOf {l : Table (Option Change)} (hw : l.wf none = true) : ((changesOf l).map Prod.fst).Nodup := by
  obtain ⟨hsorted, -⟩ := (Table.wf_iff _ _).1 hw
  have hpair : (changesOf l).Pairwise (fun a b => a.1 < b.1) := by
    refine List.Pairwise.filterMap _ (fun a b hab c hc d hd => ?_) hsorted
    obtain ⟨x, -, rfl⟩ := Option.map_eq_some_iff.1 hc
    obtain ⟨y, -, rfl⟩ := Option.map_eq_some_iff.1 hd
    exact hab
  exact List.pairwise_map.2 (hpair.imp Nat.ne_of_lt)

/-- After a swap ACTIVE names a record where it did, or where the list gave it the slot (R49). -/
theorem namesAt_of_swapIn {m : SlotMap} {e : Epoch} (he : m.sealedEpoch = some e) (hf : m.follows) {n i : Nat}
    (h : (m.swapIn e).namesAt n i) : m.namesAt n i := by
  rcases h with h | h | ⟨c, h | h, hc⟩
  · rw [SlotMap.active_swapIn he (hf.2.2 e he)] at h
    unfold SlotMap.baseAt at h
    split at h
    · exact .inr (.inr ⟨_, .inr ‹_›, Change.names_iff.2 (.inr h)⟩)
    · exact .inl h
  · exact .inr (.inl h)
  · exact .inr (.inr ⟨c, .inl h, hc⟩)
  · nomatch h

/-- A record that the list does not name keeps its slots in ACTIVE (R49). -/
theorem active_swapIn_iff {m : SlotMap} {e : Epoch} (he : m.sealedEpoch = some e) (hf : m.follows) {i : Nat}
    (hi : i ∉ namedIn e.changes) (n : Nat) : (m.swapIn e).active.get none n = some i ↔ m.active.get none n = some i := by
  have hw := hf.2.2 e he
  rw [SlotMap.active_swapIn he hw]
  unfold SlotMap.baseAt
  split
  · rename_i c hc
    have hget : e.changes.get none n = some c := by simpa [changeAt, he] using hc
    have hnot : ¬ c.names i = true := fun hn => hi ((mem_namedIn_iff hw).2 ⟨n, c, hget, hn⟩)
    rw [Change.names_iff, not_or, (hf.1 n).1 c hc] at hnot
    exact iff_of_false hnot.2 hnot.1
  · rfl

/-- The swap leaves the books to its completion: only the records that the list names may stand in another state. -/
theorem State.Claiming.swapped (h : s.Claiming noRecord noRecord) {e : Epoch} (he : s.map.sealedEpoch = some e) :
    ((s.updMap (SlotMap.swapIn e)).countChanges (changesOf e.changes)).Claiming (· ∈ namedIn e.changes) noRecord := by
  have hw := h.follows.2.2 e he
  have hfollows := SlotMap.follows_swapIn he h.follows
  obtain ⟨hstate, hgrant⟩ := grantsOnly_countChanges (changesOf e.changes) (s.updMap (SlotMap.swapIn e))
  have hget : ∀ {c : Nat × Change}, c ∈ changesOf e.changes → changeAt s.map.sealedEpoch c.1 = some c.2 := fun hc => by
    simpa [changeAt, he] using (mem_changesOf_iff hw).1 hc
  have hcount : ∀ j, (((s.updMap (SlotMap.swapIn e)).countChanges (changesOf e.changes)).grant j).activeCount
      = slotsIn s.payload (s.map.swapIn e).active j := by
    refine fun j => activeCount_countChanges (nodup_payload s.timer.code) (nodup_changesOf hw) (fun c hc => ⟨?_, ?_⟩)
      (h.counts j).2
    · exact (h.follows.1 c.1).1 c.2 (hget hc)
    · have hin : ∀ i, c.2.names i = true → c.1 ∈ s.payload := fun i hi =>
        (h.owners c.1 i (.inr (.inr ⟨c.2, .inr (hget hc), hi⟩))).1
      cases hfrom : c.2.fromOwner with
      | some i => exact .inl (hin i (Change.names_iff.2 (.inl hfrom)))
      | none =>
        cases hto : c.2.toOwner with
        | some i => exact .inl (hin i (Change.names_iff.2 (.inr hto)))
        | none => exact .inr ⟨rfl, rfl⟩
  generalize (s.updMap (SlotMap.swapIn e)).countChanges (changesOf e.changes) = t at *
  have hmap : t.map = s.map.swapIn e := by rw [hstate]; rfl
  have htimer : t.timer = s.timer := by rw [hstate]; rfl
  have hengine : t.engine = s.engine := by rw [hstate]; rfl
  have hstation : ∀ a, t.station a = s.station a := fun a => State.station_congr (by rw [hstate]; rfl) a
  have hkeeps : ∀ j, (t.grant j).state = (s.grant j).state ∧ (t.grant j).owner = (s.grant j).owner
      ∧ (t.grant j).planCount = (s.grant j).planCount ∧ (t.grant j).generation = (s.grant j).generation := fun j => by
    rw [hgrant j]
    exact ⟨rfl, rfl, rfl, rfl⟩
  have hpayload : t.payload = s.payload := by rw [State.payload, htimer]; rfl
  have hplan : ∀ j, t.planSlots j = s.planSlots j := fun j => by
    simp only [State.planSlots, hpayload, State.planAt, hmap]
    rfl
  have hactive : ∀ j, j ∉ namedIn e.changes → t.activeSlots j = s.activeSlots j := fun j hj => by
    simp only [State.activeSlots, hpayload, State.activeAt, hmap]
    exact List.filter_congr (fun n _ => decide_eq_decide.2 (active_swapIn_iff he h.follows hj n))
  have hsame : ∀ j, j ∉ namedIn e.changes → t.grant j = s.grant j := fun j hj => by
    have hlen : (t.grant j).activeCount = (s.grant j).activeCount := by
      rw [hcount, (h.counts j).2, ← hactive j hj]
      simp only [State.activeSlots, hpayload, State.activeAt, hmap]
      rfl
    rw [hgrant j, hlen]
    rfl
  have hnamed : ∀ j, (s.grant j).state = .free → j ∉ namedIn e.changes := fun j hj hn => by
    obtain ⟨n, c, hc, hcn⟩ := (mem_namedIn_iff hw).1 hn
    exact (h.owners n j (.inr (.inr ⟨c, .inr (by simpa [changeAt, he] using hc), hcn⟩))).2.2.1 hj
  refine ⟨hmap ▸ hfollows, fun j => ⟨?_, ?_⟩, fun n j hn => ?_, fun j hj => ?_, fun j hj => ?_, ?_, ?_, ?_, ?_⟩
  · rw [(hkeeps j).2.2.1, hplan]
    exact (h.counts j).1
  · rw [hcount]
    simp only [State.activeSlots, hpayload, State.activeAt, hmap]
    rfl
  · rw [hpayload, (hkeeps j).1]
    exact h.owners n j (namesAt_of_swapIn he h.follows (hmap ▸ hn))
  · rw [(hkeeps j).1] at hj
    obtain ⟨hlt, hd⟩ := h.derived j hj
    refine ⟨hlt, (em _).imp_right (fun hn => ?_)⟩
    have hgj := hsame j hn
    rw [hgj, hd.resolve_left id]
    refine (State.derived_congr (by rw [hgj]) (by rw [hgj]) (by rw [hgj]) ?_ (hplan j) (hactive j hn)).symm
    rw [hmap]
    refine SlotMap.pendingNames_congr h.follows hfollows (fun n => ?_)
    constructor
    · rintro ⟨c, hc | hc, hcj⟩
      · exact ⟨c, .inl hc, hcj⟩
      · nomatch hc
    · rintro ⟨c, hc | hc, hcj⟩
      · exact ⟨c, .inl hc, hcj⟩
      · exact absurd ((mem_namedIn_iff hw).2 ⟨n, c, by simpa [changeAt, he] using hc, hcj⟩) hn
  · rw [(hkeeps j).1] at hj
    rw [hsame j (hnamed j hj)]
    exact h.cleared j hj
  · exact State.freeQueueHolds_congr (s := s) (by rw [hstate]; rfl) (fun j => by rw [(hkeeps j).1]) h.queue
  · exact State.rosterCounts_congr (fun j => ⟨(hkeeps j).1, (hkeeps j).2.1, (hkeeps j).2.2.1⟩)
      (fun a => by rw [hstation]; exact ⟨rfl, rfl⟩) h.roster
  · exact State.ownersPresent_congr (s := s) (fun j hj => ⟨(hkeeps j).1 ▸ hj, (hkeeps j).2.1⟩)
      (fun a ha => by rw [hstation]; exact ha) h.present
  · refine State.placementHolds_congr (s := s) (by rw [hengine]) (by rw [htimer])
      (fun j hj => ⟨(hkeeps j).1.trans hj, (hkeeps j).2.1⟩) (fun g hg => ?_) h.placement
    rw [State.handlePasses_iff] at hg ⊢
    rwa [(hkeeps _).1, (hkeeps _).2.2.2] at hg

theorem State.Claiming.swapIfDue (h : s.Claiming noRecord noRecord) : s.swapIfDue.Claiming noRecord noRecord := by
  unfold State.swapIfDue
  split
  · rename_i e he
    split
    · rw [swap_eq]
      exact ((h.swapped he).complete (fun _ hi => hi)).side (sameBooks_raise _ _)
    · exact h
  · exact h

/-- A seal renames the OPEN list (R50). -/
theorem State.Claiming.sealIfDue (h : s.Claiming noRecord noRecord) : s.sealIfDue.Claiming noRecord noRecord := by
  unfold State.sealIfDue
  split
  · split
    · rename_i hdue
      have hfollows := SlotMap.follows_sealed hdue.2 h.follows
      have hlists : ∀ n i, s.sealOpen.map.listsName n i ↔ s.map.listsName n i := fun n i => by
        simp only [SlotMap.listsName, State.sealOpen, State.updMap, changeAt, hdue.2, Option.bind_none, reduceCtorEq,
          false_or, or_false]
      refine ⟨hfollows, h.counts, fun n i hn => h.owners n i ?_, fun i hi => ?_, h.cleared, h.queue, h.roster, h.present,
        h.placement⟩
      · exact hn.imp_right (Or.imp_right (hlists n i).1)
      · refine ⟨(h.derived i hi).1, .inr (((h.derived i hi).2.resolve_left id).trans ?_)⟩
        exact (State.derived_congr (s := s) (t := s.sealOpen) Iff.rfl rfl rfl
          (SlotMap.pendingNames_congr h.follows hfollows (fun n => hlists n i)) rfl rfl).symm
    · exact h
  · exact h

/-! ## The Frame Timer, a FRAME_LENGTH write, a reset -/

theorem State.Claiming.timer (h : s.Claiming T new) {f : Timer → Timer} (hcode : (f s.timer).code = s.timer.code) :
    (s.updTimer f).Claiming T new := by
  have hpayload : (s.updTimer f).payload = s.payload := congrArg LengthCode.payload hcode
  have hplan : ∀ i, (s.updTimer f).planSlots i = s.planSlots i := fun i =>
    congrArg (List.filter (fun n => decide (s.planAt n = some i))) hpayload
  have hactive : ∀ i, (s.updTimer f).activeSlots i = s.activeSlots i := fun i =>
    congrArg (List.filter (fun n => decide (s.activeAt n = some i))) hpayload
  refine ⟨h.follows, fun i => ?_, fun n i hn => ?_, fun i hi => ?_, h.cleared, h.queue, h.roster, h.present, ?_⟩
  · rw [hplan, hactive]
    exact h.counts i
  · rw [hpayload]
    exact h.owners n i hn
  · rw [State.derived_congr (s := s) (t := s.updTimer f) Iff.rfl rfl rfl rfl (hplan i) (hactive i)]
    exact h.derived i hi
  · exact State.placementHolds_congr (s := s) rfl hcode (fun _ hj => ⟨hj, rfl⟩) (fun _ hg => hg) h.placement

/-- While every record is FREE nothing is named and no placement stands, so the frame length does not matter (R16). -/
theorem State.Claiming.length (h : s.Claiming noRecord noRecord) (hfree : s.allFree = true) (c : LengthCode) :
    (s.updTimer (fun t => { t with code := c })).Claiming noRecord noRecord := by
  have hall : ∀ i, i < Config.grantCount → (s.grant i).state = .free := by
    simp only [State.allFree, Bool.and_eq_true, List.all_eq_true, List.mem_range, beq_iff_eq] at hfree
    exact hfree.2
  have hnames : ∀ n i, ¬ s.map.namesAt n i := fun n i hn =>
    (h.owners n i hn).2.2.1 (hall i (h.owners n i hn).2.1)
  have hcounts : ∀ i, (s.grant i).planCount = 0 ∧ (s.grant i).activeCount = 0 := fun i => h.counts_of_unnamed (hnames · i)
  refine ⟨h.follows, fun i => ?_, fun n i hn => absurd hn (hnames n i), fun i hi => ?_, h.cleared, h.queue, h.roster,
    h.present, fun x hx => ?_⟩
  · have hplan : (s.updTimer (fun t => { t with code := c })).planSlots i = [] :=
      List.filter_eq_nil_iff.2 (fun n _ hd => hnames n i (.inr (.inl (of_decide_eq_true hd))))
    have hactive : (s.updTimer (fun t => { t with code := c })).activeSlots i = [] :=
      List.filter_eq_nil_iff.2 (fun n _ hd => hnames n i (.inl (of_decide_eq_true hd)))
    rw [hplan, hactive]
    exact hcounts i
  · exact absurd (hall i (h.derived i hi).1) hi
  · obtain ⟨hnew, -⟩ := h.placement x hx
    have hnone : ∀ i, ((∃ l, x.kind = .create i l) ∨ ∃ q l, x.kind = .ask i q l) → False := fun i hi => by
      obtain ⟨hlt, hp, -⟩ := hnew i hi
      rw [hall i hlt] at hp
      nomatch hp
    refine ⟨fun i hi => (hnone i hi).elim, fun l v _ hr => ?_⟩
    cases hk : x.kind with
    | create i l' => exact (hnone i (.inl ⟨l', hk⟩)).elim
    | ask i q l' => exact (hnone i (.inr ⟨q, l', hk⟩)).elim
    | resize g =>
      obtain ⟨hlt, hne, -⟩ := State.handlePasses_iff.1 (hr g hk)
      exact absurd (hall _ hlt) hne

/-! ## Every step keeps the books -/

theorem booksAgree_fromReset (b : Bool) (c : LengthCode) (l : List Instr) : State.booksAgree
    { State.reset with inReset := b, timer := { State.reset.timer with code := c }, pending := l } := by
  refine ⟨SlotMap.follows_reset, fun i => ?_, fun n i hn => ?_, fun i => ⟨fun hi => absurd rfl hi, fun _ => rfl⟩,
    ⟨List.nodup_range, fun i => ?_⟩, fun a => ?_, fun i hi => absurd rfl hi, nofun⟩
  · have hnone : ∀ l : List Nat, l.filter (fun _ => decide ((none : Owner) = some i)) = [] := fun l => by simp
    exact ⟨(congrArg List.length (hnone _)).symm, (congrArg List.length (hnone _)).symm⟩
  · rcases hn with hn | hn | ⟨_, hn | hn, _⟩ <;> nomatch hn
  · exact List.mem_range.trans (and_iff_left rfl).symm
  · have hnone : (List.range Config.grantCount).filter (fun _ => (GrantState.free != .free) && ((none : Option Nat) == some a))
        = [] := by simp
    refine ⟨(congrArg List.length hnone).symm, Nat.zero_le _, ?_⟩
    exact (congrArg (fun l => (l.map (fun i => (State.reset.grant i).planCount)).sum) hnone).symm

theorem State.Claiming.of_committing (h : s.Claiming noRecord noRecord) {c : Context} {t : List Nat} {v : List Handle}
    {f : Grant → Grant} (hc : s.Committing c t v) (hf : Grant.KeepsPlace f) :
    (s.commitClaim c.kind.subject t v f).endPlacement.Claiming noRecord noRecord := by
  obtain ⟨hflight, hfound, hstands⟩ := hc
  obtain ⟨hnew, hslots⟩ := h.placement c hflight
  have hpass : ∀ g, c.kind = .resize g → s.handlePasses g = true := by
    intro g hk
    rw [hk] at hstands
    simp only [PlacementKind.retiredIn, State.resizeRetired, Bool.or_eq_false_iff, Bool.not_eq_false'] at hstands
    exact hstands.1
  have hsubject : c.kind.subject < Config.grantCount ∧ (s.grant c.kind.subject).state ≠ .free := by
    cases hk : c.kind with
    | create i l =>
      obtain ⟨hlt, hp, -⟩ := hnew i (.inl ⟨l, hk⟩)
      exact ⟨hlt, fun hfree => nomatch hp.symm.trans hfree⟩
    | ask i q l =>
      obtain ⟨hlt, hp, -⟩ := hnew i (.inr ⟨q, l, hk⟩)
      exact ⟨hlt, fun hfree => nomatch hp.symm.trans hfree⟩
    | resize g =>
      obtain ⟨hlt, hne, -⟩ := State.handlePasses_iff.1 (hpass g hk)
      exact ⟨hlt, hne⟩
  rw [endPlacement_eq_mask, ← mask_commitClaim, ← endPlacement_eq_mask]
  exact h.endPlacement.commitClaim rfl hsubject (hslots t v hfound hpass) hf

theorem blockKept_claiming : BlockKept (fun s => s.Claiming noRecord noRecord) where
  side _ _ hb h := h.side hb
  station _ _ _ hf h := h.station hf
  move _ _ _ hm h := h.move hm
  grant _ _ _ hi hf h := h.keepsPlace hi hf
  retire l why _ h := h.retire l why
  place _ _ _ _ hp h := h.placeNew hp
  beginResize _ _ _ hc h := h.beginResize hc
  returned c s hc hn h := by
    refine h.returnRecord ?_
    obtain ⟨hnew, -⟩ := h.placement c hc
    cases hk : c.kind with
    | create i l => exact (hnew i (.inl ⟨l, hk⟩)).2.1
    | ask i q l => exact (hnew i (.inr ⟨q, l, hk⟩)).2.1
    | resize g =>
      rw [hk] at hn
      nomatch hn
  committed _ _ _ _ _ hc hf h := h.of_committing hc hf
  noteKind k _ h := h.noteKind k
  endPlacement _ h := h.endPlacement

theorem partKept_claiming : PartKept (fun s => s.Claiming noRecord noRecord) where
  toBlockKept := blockKept_claiming
  timer _ _ _ hcode h := h.timer hcode
  epochs s h := by
    rw [epochsAtStart_eq]
    exact h.swapIfDue.sealIfDue
  arbitrate _ h := blockKept_claiming.arbitrate (fun _ _ h => ⟨h.follows, h.counts, h.owners, h.derived, h.cleared, h.queue,
    h.roster, h.present, h.placement⟩) h
  length c _ _ hfree _ h := h.length hfree c
  fromReset b c s _ := State.booksAgree_iff.1 (booksAgree_fromReset b c s.pending)

end Sys2Proof.Machine

namespace Sys2Proof.Proofs

open Sys2Proof.Machine

/-- Settles O59: a claim leaves the books in agreement but for the records it touches, whose completion re-derives and
frees them; every other write keeps them. -/
theorem theBooksAgree : Obligations.TheBooksAgree :=
  fun _ _ h ht => State.booksAgree_iff.2 (step_keeps_part partKept_claiming ht (State.booksAgree_iff.1 h))

/-- Settles O60: nothing is named, held or in flight after reset. -/
theorem invariantsHoldAfterReset : Obligations.InvariantsHoldAfterReset := by
  obtain ⟨hcfg, hport, hnotices, hmail⟩ := queuesLegal_reset
  exact ⟨⟨hcfg, ⟨nofun, nofun, nofun⟩, hport, ⟨hnotices, hmail⟩, Nat.zero_le _, nofun⟩, canonical_reset,
    SlotMap.follows_reset, nofun, booksAgree_fromReset false .l256 []⟩

end Sys2Proof.Proofs
end

section
/-! Commands as events: which part operation a command is (`operationOf`), what every command keeps, resets (O2, O4),
and the queue of commands (O1). -/

namespace Sys2Proof.Machine

variable {s : State}

/-! ## The operation of a command -/

/-- The operation that a command takes as one event of the part; none for a reset, a release, PLACEMENT_TAKE and
COMMIT_POINT, which have meanings of their own. -/
def operationOf : Instr → Option (State → State)
  | .deviceReset | .resetRelease _ | .placementTake | .commitPoint => none
  | .highwayStart => some State.highwayStart
  | .frameStart => some (fun s => s.endIfDue.startIfDue)
  | .slotEvent act hsd => some (State.slotEvent (Sense.ofAct act) hsd)
  | .downlinkArbitration => some State.arbitrateIfDue
  | .frameEnd => some State.endIfDue
  | .taintExpired slot => some (State.expireTaint slot.toNat)
  | .retryCountdownExpired a => some (State.expireCountdown a.toNat)
  | .strayHoldoffExpired a => some (State.expireHoldoff a.toNat)
  | .leaseTick => some State.leaseTick
  | .leaseExpired i => some (State.leaseExpired i.toNat)
  | .departureComplete a => some (State.departIfDone a.toNat)
  | .keep ack => some (State.uplinkWordEvent (uplinkWord ack .keep))
  | .join ack => some (State.uplinkWordEvent (uplinkWord ack .join))
  | .ask ack f => some (State.uplinkWordEvent (uplinkWord ack (.ask f)))
  | .drop ack h => some (State.uplinkWordEvent (uplinkWord ack (.drop h)))
  | .renewWord ack h c => some (State.uplinkWordEvent (uplinkWord ack (.renew h c)))
  | .leave ack => some (State.uplinkWordEvent (uplinkWord ack .leave))
  | .create head f => some (State.request (createEntry head f))
  | .resize head h n => some (State.request (resizeEntry head h n))
  | .release head h => some (State.request (handleEntry 3 head h))
  | .renew head h g l => some (State.request (renewEntry head h g l))
  | .setStation head q c b => some (State.request (setStationEntry head q c b))
  | .evict head => some (State.request (plainEntry 6 head))
  | .retireAll head => some (State.request (plainEntry 7 head))
  | .lookupGrant head h => some (State.request (handleEntry 8 head h))
  | .lookupSlot head n => some (State.request (lookupSlotEntry head n))
  | .lookupStation head => some (State.request (plainEntry 10 head))
  | .listSlots head h n p => some (State.request (listSlotsEntry head h n p))
  | .census head => some (State.request (plainEntry 12 head))
  | .unknownOp head op => some (State.request (plainEntry op head))
  | .rqpost _ => some State.post
  | .rspop _ => some State.popResult
  | .runRequest => some (State.updTimer Timer.runRequest)
  | .stopRequest => some (State.updTimer Timer.stopRequest)
  | .frameLengthWrite w => some (State.writeFrameLength w)
  | .epochLeadWrite w => some (State.writeEpochLead w)
  | .presenceLimitsWrite w => some (State.writePresenceLimits w)
  | .noticeTimingWrite w => some (State.writeNoticeTiming w)
  | .faultLimitWrite w => some (State.writeFaultLimit w)
  | .intrusionCountWrite _ => some State.writeIntrusionCount
  | .intFlagsRead => some (State.readAccess 0x0E)
  | .intFlagsWrite w => some (State.writeIntFlags w)
  | .intEnableWrite w => some (State.writeIntEnable w)
  | .registerWrite a w => some (State.busWrite a w)

/-- The four commands with a meaning of their own (R2, R12, R59, R76). -/
theorem operationOf_eq_none {c : Instr} (h : operationOf c = none) :
    c = .deviceReset ∨ (∃ f, c = .resetRelease f) ∨ c = .placementTake ∨ c = .commitPoint := by
  cases c with
  | deviceReset => exact .inl rfl
  | resetRelease f => exact .inr (.inl ⟨f, rfl⟩)
  | placementTake => exact .inr (.inr (.inl rfl))
  | commitPoint => exact .inr (.inr (.inr rfl))
  | _ => nomatch h

/-- Every other command is the event of its operation. -/
theorem exec_operation {c : Instr} {f : State → State} (h : operationOf c = some f) (s : State) : exec c s = s.event f := by
  cases c <;> cases h <;> rfl

theorem exec_of_ready {c : Instr} {f : State → State} (hc : operationOf c = some f) (h : s.ready) :
    exec c s = .next (f s) :=
  (exec_operation hc s).trans (event_next_of_not_due h.1 h.2)

/-! ## What every command keeps -/

theorem exec_completes (c : Instr) (s : State) : ∃ t, exec c s = .next t := by
  cases hc : operationOf c with
  | some f => exact ⟨_, exec_operation hc s⟩
  | none =>
    rcases operationOf_eq_none hc with rfl | ⟨f, rfl⟩ | rfl | rfl
    · exact ⟨_, rfl⟩
    · exact ⟨_, rfl⟩
    · exact ⟨_, rfl⟩
    · exact ⟨_, rfl⟩

/-- The queue of commands is the step's alone (log 23). -/
theorem keptByAll_pending (x : List Instr) : KeptByAll (fun s => s.pending = x) where
  grant _ _ _ h := h
  station _ _ _ h := h
  ask _ _ _ h := h
  mailbox _ _ _ _ h := h
  flag _ _ h := h
  freeQueue _ _ h := h
  askQueue _ _ _ h := h
  record _ _ _ _ h := by
    rw [State.pending_updMap, State.pending_openIfNone]
    exact h
  accept _ _ _ h := h
  counter _ _ h := h
  engine _ _ h := h
  port _ _ _ h := h
  downlink _ _ _ h := h
  intrusions _ _ h := h
  taint _ _ _ h := h
  swapMap _ _ _ h := h
  sealOpen _ _ h := h
  countDown _ h := h
  timer _ _ h := h
  config _ _ _ h := h
  ints _ _ h := h
  readData _ _ h := h
  fromReset _ _ _ h := h

/-! ## Resets -/

theorem event_of_inReset {f : State → State} (h : s.inReset = true) : s.event f = .next s := by
  simp [State.event, h]

/-- What R2, R3 and R179 give after a reset, RESETn LOW or released. -/
theorem holdsReset_fromReset (b : Bool) (c : LengthCode) (l : List Instr) : State.holdsReset c
    { State.reset with inReset := b, timer := { State.reset.timer with code := c }, pending := l } := by
  refine ⟨rfl, ⟨fun _ => rfl, rfl, rfl⟩, ⟨fun _ => ⟨rfl, rfl, rfl⟩, rfl, rfl, rfl⟩, rfl, ⟨fun _ => ⟨rfl, rfl, rfl⟩, rfl, rfl⟩,
    ⟨rfl, rfl⟩, rfl, rfl, ?_, ?_, rfl, rfl, rfl, rfl, ?_, fun k hk hk' => ?_⟩
  · exact (by decide : (0#16 ++ 32#8 ++ 4#8) = 0x2004#32)
  · exact (by decide : (0#20 ++ 8#4 ++ 0#4 ++ 4#4) = 0x804#32)
  · exact (by decide : (0#30 ++ BitVec.ofBool true ++ BitVec.ofBool true) = 3#32)
  · interval_cases k <;> rfl

end Sys2Proof.Machine

namespace Sys2Proof.Proofs

open Sys2Proof.Machine

/-- Settles O1, by the definition of the step. -/
theorem stepRunsTheFrontCommand : Obligations.StepRunsTheFrontCommand := by
  refine ⟨fun _ _ _ => rfl, fun s h => ?_⟩
  unfold step
  rw [h]

/-- Settles O2: no command faults or is refused, and none writes the queue of commands. -/
theorem everyCommandCompletes : Obligations.EveryCommandCompletes := by
  intro c s
  obtain ⟨t, ht⟩ := exec_completes c s
  exact ⟨t, ht, exec_keeps (keptByAll_pending s.pending) ht rfl⟩

/-- Settles O4. -/
theorem theDeviceReset : Obligations.TheDeviceReset := by
  refine ⟨fun s => ⟨_, rfl, rfl, holdsReset_fromReset true .l256 s.pending, rfl, rfl, rfl, rfl, fun _ => rfl⟩,
    fun c s h hc hf => ?_, fun flen s => ⟨fun h => ?_, fun h => ?_⟩⟩
  · cases ho : operationOf c with
    | some f => rw [exec_operation ho, event_of_inReset h]
    | none =>
      rcases operationOf_eq_none ho with rfl | ⟨f, rfl⟩ | rfl | rfl
      · exact absurd rfl hc
      · exact absurd rfl (hf f)
      · simp [exec, execPlacementTake, h]
      · simp [exec, execCommitPoint, h]
  · have hcode : LengthCode.ofBits flen = if flen = 0 then .l256 else if flen = 1 then .l512 else .l1024 := rfl
    have hbits : ∀ f : BitVec 2, (LengthCode.ofBits f).bits.setWidth 32 = if f = 0 then 0#32 else if f = 1 then 1 else 2 := by
      decide
    refine ⟨{ State.reset with timer := { State.reset.timer with code := .ofBits flen }, pending := s.pending }, ?_, rfl, rfl,
      hcode ▸ holdsReset_fromReset false (.ofBits flen) s.pending, hbits flen⟩
    simp [exec, execResetRelease, h]
  · simp [exec, execResetRelease, h]

/-- Settles O30. -/
theorem handlesAndEffectiveFrames : Obligations.HandlesAndEffectiveFrames := by
  refine ⟨fun s h => ?_, fun s i => ⟨fun e he hn => ?_, fun e ho he hn => ?_, fun ho hs => ?_⟩,
    fun t => ⟨fun h => ?_, fun h => ?_, fun p h hp => ?_⟩⟩
  · rw [State.handlePasses_iff]
    simp only [Config.grantCount, Nat.lt_succ_iff]
  · have hopen : s.map.openEpoch.filter (fun e => [i].any (fun i => e.names i)) = some e := by simp [he, Option.filter, hn]
    simp only [State.effectFor, hopen]
  · have hopen : s.map.openEpoch.filter (fun e => [i].any (fun i => e.names i)) = none := by
      rw [Option.filter_eq_none_iff]
      intro o h
      simp [ho o h]
    have hsealed : s.map.sealedEpoch.filter (fun e => [i].any (fun i => e.names i)) = some e := by
      simp [he, Option.filter, hn]
    simp only [State.effectFor, hopen, hsealed]
  · have hopen : s.map.openEpoch.filter (fun e => [i].any (fun i => e.names i)) = none := by
      rw [Option.filter_eq_none_iff]
      intro o h
      simp [ho o h]
    have hsealed : s.map.sealedEpoch.filter (fun e => [i].any (fun i => e.names i)) = none := by
      rw [Option.filter_eq_none_iff]
      intro o h
      simp [hs o h]
    simp only [State.effectFor, hopen, hsealed]
  · simp [Timer.nextFrame, h]
  · simp [Timer.nextFrame, h]
  · unfold Timer.nextFrame
    rw [h]
    cases p <;> simp_all

end Sys2Proof.Proofs
end

section
/-! The takes that are due (R59, logs 5 and 9): how many there can be, that they end in a state in which none is due, and
which commands fall together with them (O3). -/

namespace Sys2Proof.Machine

variable {s : State}

/-! ## What a performed request is made of -/

/-- `u` is reached from `s` by the writes of claims. -/
def Claimed (s u : State) : Prop := ∀ P : State → Prop, Kept P → P s → P u

theorem claimed_refl (s : State) : Claimed s s := fun _ _ h => h

/-- A head is handed to the engine, or performed at the take and answered (R164). -/
theorem perform_cases (e : Quad) (s : State) :
    s.perform e = s.handOn e ∨ ∃ u q, s.perform e = u.postResult q ∧ Claimed s u := by
  unfold State.perform
  split
  · exact .inl rfl
  · exact .inl rfl
  · exact .inr ⟨_, _, rfl, fun _ K h => K.performRelease _ h⟩
  · exact .inr ⟨_, _, rfl, fun _ K h => K.performRenew _ _ h⟩
  · exact .inr ⟨_, _, rfl, fun _ K h => K.performSetStation _ _ _ _ h⟩
  · exact .inr ⟨_, _, rfl, fun _ K h => K.performEvict _ h⟩
  · exact .inr ⟨_, _, rfl, fun _ K h => K.performRetireAll _ h⟩
  all_goals exact .inr ⟨_, _, rfl, claimed_refl s⟩

theorem kept_askQueue_le (n : Nat) : Kept (fun s => s.askQueue.length ≤ n) where
  grant _ _ _ h := h
  station _ _ _ h := h
  ask _ _ _ h := h
  mailbox _ _ _ _ h := h
  flag _ _ h := h
  freeQueue _ _ h := h
  askQueue _ _ hq h := hq.length_le.trans h
  record _ _ s _ h := by simpa using h

/-! ## The work that waits (R58) -/

/-- The items of work that wait for the engine or the port. -/
def State.work (s : State) : Nat :=
  s.askQueue.length + s.port.requests.length + (if s.port.inProgress.isSome then 1 else 0)

theorem work_claimed {u : State} (h : Claimed s u) : u.work ≤ s.work := by
  have hport : u.port = s.port := h _ (kept_port s.port) rfl
  have hasks : u.askQueue.length ≤ s.askQueue.length := h _ (kept_askQueue_le _) le_rfl
  unfold State.work
  rw [hport]
  omega

/-- The port's take of a head brings no work that did not wait. -/
theorem work_takeEntry {e : Quad} {rest : List Quad} (hr : s.port.requests = e :: rest) (hi : s.port.inProgress = none) :
    (s.takeEntry e rest).work ≤ s.work := by
  have hclear : Claimed s ((s.clearSuspension e)) := fun _ K h => K.clearSuspension e h
  have hport : (State.clearSuspension e (s.updPort (fun p => { p with requests := rest }))).port
      = { s.port with requests := rest } := (kept_port _).clearSuspension e rfl
  have hasks : (State.clearSuspension e (s.updPort (fun p => { p with requests := rest }))).askQueue.length
      ≤ s.askQueue.length := (kept_askQueue_le s.askQueue.length).clearSuspension e le_rfl
  unfold State.takeEntry
  generalize State.clearSuspension e (s.updPort (fun p => { p with requests := rest })) = t at *
  have hwork : t.work + 1 ≤ s.work := by
    simp only [State.work, hport, hr, hi, List.length_cons, Option.isSome_none, Bool.false_eq_true, if_false]
    omega
  rcases perform_cases e t with hp | ⟨u, q, hp, hu⟩
  · rw [hp]
    have : (t.handOn e).work ≤ t.work + 1 := by
      simp only [State.work, State.handOn, State.updPort, Option.isSome_some, if_true]
      omega
    omega
  · rw [hp]
    have : (u.postResult q).work = u.work := rfl
    have := work_claimed hu
    omega

theorem work_serve (fuel : Nat) (s : State) : (s.serve fuel).work ≤ s.work := by
  induction fuel generalizing s with
  | zero => exact le_rfl
  | succ n ih =>
    unfold State.serve
    split
    · exact le_rfl
    · split
      · rename_i hcan
        have hi : s.port.inProgress = none := by
          simp only [Port.canTake, Bool.and_eq_true, beq_iff_eq] at hcan
          exact hcan.1
        exact (ih _).trans (work_takeEntry ‹_› hi)
      · exact le_rfl

theorem work_handBack {e : Quad} (r : Answer) (hi : s.port.inProgress.isSome = true) : (s.handBack e r).work + 1 ≤ s.work := by
  unfold State.handBack State.servePort
  refine (Nat.succ_le_succ (work_serve _ _)).trans ?_
  simp [State.work, hi, State.updPort, State.raise]

/-! ## Takes -/

theorem takeDue_iff : s.takeDue = true ↔ s.engine.context = none ∧ (s.port.inProgress.isSome = true ∨ s.askQueue ≠ []) := by
  unfold State.takeDue State.workChosen
  cases s.port.inProgress <;> cases s.askQueue <;> simp; split <;> simp

theorem takeDue_eq_false_iff : s.takeDue = false ↔
    s.engine.context.isSome = true ∨ (s.port.inProgress = none ∧ s.askQueue = []) := by
  rw [← Bool.not_eq_true, takeDue_iff]
  cases s.engine.context <;> cases s.port.inProgress <;> simp

theorem takeDue_of_busy (h : s.engine.context.isSome = true) : s.takeDue = false := takeDue_eq_false_iff.2 (.inl h)

/-- No work waits, or the engine is BUSY: no take is made (R59). -/
theorem takeOnce_of_not_due (h : s.takeDue = false) : s.takeOnce = s := by
  unfold State.takeOnce
  rcases takeDue_eq_false_iff.1 h with hb | ⟨hi, hq⟩
  · rw [if_pos hb]
  · split
    · rfl
    · have hw : s.workChosen = none := by simp [State.workChosen, hi, hq]
      rw [hw]

theorem engine_placeNew (k : Nat → PlacementKind) (g : Grant) (a : Nat) (s : State) :
    (s.placeNew k g a).engine.context.isSome = true := rfl

/-- A take of LOCAL work makes the engine BUSY, or answers and leaves less work (R60). -/
theorem busy_or_less_takeLocal {e : Quad} (hi : s.port.inProgress.isSome = true) :
    (s.takeLocal e).engine.context.isSome = true ∨ (s.takeLocal e).work + 1 ≤ s.work := by
  unfold State.takeLocal
  split
  · unfold State.takeResize
    dsimp only
    split
    · exact .inr (work_handBack _ hi)
    · exact .inl rfl
  · unfold State.takeCreate
    dsimp only
    split
    · exact .inr (work_handBack _ hi)
    · exact .inl rfl

theorem busy_or_less_takeAsk (q : Ask) (s : State) :
    (s.takeAsk q).engine.context.isSome = true ∨ (s.takeAsk q).work ≤ s.work := by
  unfold State.takeAsk
  dsimp only
  split
  · exact .inr (work_claimed (s := s) (fun _ K h => K.ask _ _ _ (K.handNotice _ _ (K.ask _ _ _ h))))
  · exact .inl rfl

/-- A take that is due makes the engine BUSY, or leaves less work. -/
theorem busy_or_less_takeOnce (h : s.takeDue = true) :
    s.takeOnce.engine.context.isSome = true ∨ s.takeOnce.work + 1 ≤ s.work := by
  obtain ⟨hidle, hwork⟩ := takeDue_iff.1 h
  unfold State.takeOnce
  rw [hidle, if_neg (by simp)]
  split
  · rename_i e hc hp
    exact busy_or_less_takeLocal (s := s) (by rw [hp]; rfl)
  · rename_i q rest hc hq
    refine (busy_or_less_takeAsk q { s.noteKind .uplink with askQueue := rest }).imp_right (fun hle => ?_)
    have : State.work { s.noteKind .uplink with askQueue := rest } + 1 = s.work := by
      simp only [State.work, hq, List.length_cons]
      show rest.length + s.port.requests.length + (if s.port.inProgress.isSome then 1 else 0) + 1 = _
      omega
    omega
  · rename_i hlocal hask
    exfalso
    cases hp : s.port.inProgress with
    | some e =>
      cases hq : s.askQueue with
      | nil => exact hlocal e (by simp [State.workChosen, hp, hq]) hp
      | cons q r =>
        by_cases hl : s.engine.lastKind = .uplink
        · exact hlocal e (by simp [State.workChosen, hp, hq, hl]) hp
        · exact hask q r (by simp [State.workChosen, hp, hq, hl]) hq
    | none =>
      cases hq : s.askQueue with
      | nil => simp [hp, hq] at hwork
      | cons q r => exact hask q r (by simp [State.workChosen, hp, hq]) hq

theorem takes_succ_if (n : Nat) (s : State) : s.takes (n + 1) = if s.takeDue then s.takeOnce.takes n else s := rfl

theorem takes_of_not_due (n : Nat) (h : s.takeDue = false) : s.takes n = s := by
  cases n with
  | zero => rfl
  | succ n => rw [takes_succ_if, h, if_neg (by decide)]

theorem takes_succ (n : Nat) (s : State) : s.takes (n + 1) = s.takeOnce.takes n := by
  by_cases h : s.takeDue = true
  · rw [takes_succ_if, if_pos h]
  · rw [Bool.not_eq_true] at h
    rw [takes_of_not_due _ h, takeOnce_of_not_due h, takes_of_not_due _ h]

theorem takeDue_of_no_work (h : s.work = 0) : s.takeDue = false := by
  unfold State.work at h
  refine takeDue_eq_false_iff.2 (.inr ⟨?_, List.length_eq_zero_iff.1 (by omega)⟩)
  cases hp : s.port.inProgress with
  | none => rfl
  | some e => simp [hp] at h

/-- As many takes as there is work leave none due. -/
theorem takeDue_takes {n : Nat} (h : s.work ≤ n) : (s.takes n).takeDue = false := by
  induction n generalizing s with
  | zero => exact takeDue_of_no_work (Nat.le_zero.1 h)
  | succ n ih =>
    by_cases hd : s.takeDue = true
    · rw [takes_succ]
      rcases busy_or_less_takeOnce hd with hb | hl
      · have hnot := takeDue_of_busy hb
        rw [takes_of_not_due _ hnot]
        exact hnot
      · exact ih (by omega)
    · rw [Bool.not_eq_true] at hd
      rw [takes_of_not_due _ hd]
      exact hd

/-- However many takes are allowed, those due are made until none is. -/
theorem takes_eq_of_not_due {n k : Nat} (hn : (s.takes n).takeDue = false) (hk : (s.takes k).takeDue = false) :
    s.takes n = s.takes k := by
  induction n generalizing s k with
  | zero => exact (takes_of_not_due k hn).symm
  | succ n ih =>
    cases k with
    | zero => exact takes_of_not_due (n + 1) hk
    | succ k =>
      rw [takes_succ] at *
      rw [takes_succ]
      exact ih hn hk

theorem work_le_workWaiting (s : State) : s.work ≤ s.workWaiting := by
  unfold State.work State.workWaiting
  split <;> omega

theorem takeDue_catchUp (s : State) : s.catchUp.takeDue = false := takeDue_takes (work_le_workWaiting s)

theorem catchUp_catchUp (s : State) : s.catchUp.catchUp = s.catchUp := catchUp_of_not_due (takeDue_catchUp s)

theorem catchUp_takeOnce (s : State) : s.takeOnce.catchUp = s.catchUp := by
  have h : s.takeOnce.catchUp = s.takes (s.takeOnce.workWaiting + 1) := (takes_succ _ _).symm
  rw [h]
  exact takes_eq_of_not_due (h ▸ takeDue_catchUp _) (takeDue_catchUp s)

theorem inReset_catchUp (s : State) : s.catchUp.inReset = s.inReset := (keptAll_inReset s.inReset).catchUp rfl

theorem pending_catchUp (s : State) : s.catchUp.pending = s.pending := (keptByAll_pending s.pending).toKeptAll.catchUp rfl

theorem inReset_takeOnce (s : State) : s.takeOnce.inReset = s.inReset := (keptAll_inReset s.inReset).takeOnce rfl

theorem pending_takeOnce (s : State) : s.takeOnce.pending = s.pending :=
  (keptByAll_pending s.pending).toKeptAll.takeOnce rfl

end Sys2Proof.Machine
end

section
/-! Events that fall together with a take (log 5): an event does the same with a BUSY engine, and leaves the engine as it
was, unless it is the ASK that an IDLE engine takes at once (R122); and with them O3. -/

namespace Sys2Proof.Machine

variable {s : State}

/-! ## Another engine under an operation of the port -/

/-- Another content for the engine alone. -/
def Mask.ofEngine (g : Engine → Engine) : Mask := { engine := g, staging := id, requests := id }

theorem mask_ofEngine_id (s : State) : s.mask (.ofEngine (fun _ => s.engine)) = s := rfl

section
variable (g : Engine → Engine) (s : State)

theorem mask_ofEngine_updPort (f : Port → Port) :
    (s.mask (.ofEngine g)).updPort f = (s.updPort f).mask (.ofEngine g) := rfl

theorem mask_ofEngine_serve (fuel : Nat) : (s.mask (.ofEngine g)).serve fuel = (s.serve fuel).mask (.ofEngine g) := by
  induction fuel generalizing s with
  | zero => rfl
  | succ n ih =>
    have hport : (s.mask (.ofEngine g)).port = s.port := rfl
    unfold State.serve
    rw [hport]
    split
    · rfl
    · rw [mask_ite]
      refine if_congr Iff.rfl ?_ rfl
      rw [← ih]
      congr 1
      unfold State.takeEntry
      rw [mask_ofEngine_updPort, mask_clearSuspension, mask_perform]

theorem mask_ofEngine_servePort : (s.mask (.ofEngine g)).servePort = s.servePort.mask (.ofEngine g) :=
  mask_ofEngine_serve g s _

theorem mask_ofEngine_post : (s.mask (.ofEngine g)).post = s.post.mask (.ofEngine g) := by
  unfold State.post
  rw [mask_ite, mask_ofEngine_updPort, mask_ofEngine_servePort]
  rfl

theorem mask_ofEngine_popResult : (s.mask (.ofEngine g)).popResult = s.popResult.mask (.ofEngine g) := by
  unfold State.popResult
  rw [mask_ofEngine_updPort, mask_ofEngine_servePort]

theorem mask_ofEngine_request (e : Quad) : (s.mask (.ofEngine g)).request e = (s.request e).mask (.ofEngine g) := by
  unfold State.request
  rw [mask_ofEngine_updPort, mask_ofEngine_post]

theorem mask_writeEpochLead (m : Mask) (w : Word) : (s.mask m).writeEpochLead w = (s.writeEpochLead w).mask m :=
  mask_configure m s (fun _ => rfl)

theorem mask_writePresenceLimits (m : Mask) (w : Word) :
    (s.mask m).writePresenceLimits w = (s.writePresenceLimits w).mask m := mask_configure m s (fun _ => rfl)

theorem mask_writeNoticeTiming (m : Mask) (w : Word) : (s.mask m).writeNoticeTiming w = (s.writeNoticeTiming w).mask m :=
  mask_configure m s (fun _ => rfl)

theorem mask_writeFaultLimit (m : Mask) (w : Word) : (s.mask m).writeFaultLimit w = (s.writeFaultLimit w).mask m :=
  mask_configure m s (fun _ => rfl)

theorem mask_ofEngine_busWrite (a : BitVec 6) (w : Word) :
    (s.mask (.ofEngine g)).busWrite a w = (s.busWrite a w).mask (.ofEngine g) := by
  unfold State.busWrite
  split
  · rfl
  · exact mask_writeFrameLength _ _ _
  · exact mask_writeEpochLead _ _ _
  · exact mask_writePresenceLimits _ _ _
  · exact mask_writeNoticeTiming _ _ _
  · rfl
  · rfl
  · exact mask_writeFaultLimit _ _ _
  · rfl
  · rfl
  · rfl
  · rfl
  · rfl
  · exact mask_ofEngine_post _ _
  · exact mask_ofEngine_popResult _ _
  · split
    · rfl
    · split <;> rfl

end

/-! ## Events that do not see the engine -/

/-- The engine BUSY with some placement. -/
def Mask.busy (x : Context) : Mask := .ofEngine (fun e => { e with context := some x })

/-- From `s` the operation does the same with a BUSY engine, and leaves the engine as it was. -/
def Indifferent (f : State → State) (s : State) : Prop :=
  (∀ x, f (s.mask (.busy x)) = (f s).mask (.busy x)) ∧ (f s).engine = s.engine

theorem indifferent_of_mask {f : State → State} (h : ∀ g s, f (s.mask (.ofEngine g)) = (f s).mask (.ofEngine g)) (s : State) :
    Indifferent f s := by
  refine ⟨fun x => h _ s, ?_⟩
  have hs := h (fun _ => s.engine) s
  rw [mask_ofEngine_id] at hs
  rw [hs]
  rfl

/-- Either that, or the operation is the ASK that an IDLE engine, without other work, takes at once (R122). -/
def Splits (f : State → State) (s : State) : Prop :=
  Indifferent f s ∨ (s.takeDue = false ∧ ∀ x, s.askQueue.length < (f (s.mask (.busy x))).askQueue.length)

theorem splits_of_mask {f : State → State} (h : ∀ g s, f (s.mask (.ofEngine g)) = (f s).mask (.ofEngine g)) (s : State) :
    Splits f s := .inl (indifferent_of_mask h s)

theorem splits_congr {f g : State → State} (hs : f s = g s) (hx : ∀ x, f (s.mask (.busy x)) = g (s.mask (.busy x)))
    (h : Splits g s) : Splits f s := by
  unfold Splits Indifferent at *
  simp only [hs, hx]
  exact h

/-- An operation that leaves the engine and the work that waits, before one that splits. -/
theorem splits_comp {f h : State → State} (hmask : ∀ x, h (s.mask (.busy x)) = (h s).mask (.busy x))
    (hengine : (h s).engine = s.engine) (hwork : (h s).askQueue = s.askQueue ∧ (h s).port = s.port) (hf : Splits f (h s)) :
    Splits (fun s => f (h s)) s := by
  obtain ⟨hasks, hport⟩ := hwork
  rcases hf with ⟨hf, he⟩ | ⟨hd, hq⟩
  · exact .inl ⟨fun x => (congrArg f (hmask x)).trans (hf x), he.trans hengine⟩
  · refine .inr ⟨?_, fun x => ?_⟩
    · rw [← hd]
      unfold State.takeDue State.workChosen
      rw [hengine, hport, hasks]
    · dsimp only
      rw [← hasks, hmask]
      exact hq x

/-! ## Uplink slots -/

/-- The acceptance of an ask: WAITING behind other work or a placement, and taken at once without (R122). -/
theorem splits_arriveAsk (a : Nat) (f : AskFields) (s : State) : Splits (State.arriveAsk a f) s := by
  have hbusy : ∀ x, (s.mask (.busy x)).arriveAsk a f = (s.acceptAsk a f).mask (.busy x) := fun x =>
    arriveAsk_of_busy _ _ rfl
  by_cases h : (s.engine.context.isNone && s.workChosen.isNone) = true
  · have hd : s.takeDue = false := by
      rw [Bool.and_eq_true, Option.isNone_iff_eq_none, Option.isNone_iff_eq_none] at h
      simp [State.takeDue, h.1, h.2]
    refine .inr ⟨hd, fun x => ?_⟩
    rw [hbusy]
    simp [State.acceptAsk]
  · have hs : s.arriveAsk a f = s.acceptAsk a f := by rw [State.arriveAsk, if_neg h]
    refine .inl ⟨fun x => ?_, ?_⟩
    · rw [hbusy, hs]
    · rw [hs]
      rfl

theorem splits_askFor (a : Nat) (f : AskFields) (s : State) : Splits (State.askFor a f) s := by
  by_cases hl : (s.ask a).lastAnswered = some f.seq
  · refine splits_congr (g := id) ?_ (fun x => ?_) (splits_of_mask (fun _ _ => rfl) s)
    · simp [State.askFor, hl]
    · simp [State.askFor, hl]
  · cases hq : (s.ask a).status.seq with
    | none =>
      refine splits_congr ?_ (fun x => ?_) (splits_arriveAsk a f s)
      · simp [State.askFor, hl, hq]
      · simp [State.askFor, hl, hq]
    | some q =>
      by_cases hqf : q = f.seq
      · refine splits_congr (g := id) ?_ (fun x => ?_) (splits_of_mask (fun _ _ => rfl) s)
        · simp [State.askFor, hl, hq, hqf]
        · simp [State.askFor, hl, hq, hqf]
      · refine splits_congr ?_ (fun x => ?_) (splits_of_mask (fun g s => mask_refuseBusy (.ofEngine g) s a f.seq) s)
        · simp [State.askFor, hl, hq, hqf]
        · simp [State.askFor, hl, hq, hqf]

theorem splits_memberWord (a : Nat) (b : UplinkBody) (s : State) : Splits (State.memberWord a b) s := by
  cases b with
  | keep => exact splits_of_mask (fun _ _ => rfl) s
  | join => exact splits_of_mask (fun g s => mask_enterLeaving (.ofEngine g) s a .rejoin) s
  | ask f => exact splits_askFor a f s
  | drop h => exact splits_of_mask (fun g s => mask_dropFor (.ofEngine g) s a h) s
  | renew h c => exact splits_of_mask (fun g s => mask_renewFor (.ofEngine g) s a h c) s
  | leave => exact splits_of_mask (fun g s => mask_enterLeaving (.ofEngine g) s a .left) s

theorem askQueue_takeAck (s : State) (a : Nat) (ack : BitVec 4) : (s.takeAck a ack).askQueue = s.askQueue := by
  unfold State.takeAck
  split
  · dsimp only
    split <;> rfl
  · rfl

theorem askQueue_markHeard (s : State) (a : Nat) : (s.markHeard a).askQueue = s.askQueue := by
  unfold State.markHeard
  split <;> rfl

theorem askQueue_returnFromQuiet (s : State) (a : Nat) : (s.returnFromQuiet a).askQueue = s.askQueue := by
  unfold State.returnFromQuiet
  split <;> rfl

theorem splits_decodeWord (a : Nat) (ack : BitVec 4) (b : UplinkBody) (s : State) : Splits (State.decodeWord a ack b) s := by
  cases hst : (s.station a).state with
  | absent =>
    refine splits_congr ?_ (fun x => ?_) (splits_of_mask (fun g s => mask_absentWord (.ofEngine g) s a b) s)
    · rw [State.decodeWord, hst]
    · rw [State.decodeWord, mask_station, hst]
  | joining =>
    refine splits_congr ?_ (fun x => ?_) (splits_of_mask (fun g s => mask_takeAck (.ofEngine g) s a ack) s)
    · rw [State.decodeWord, hst]
    · rw [State.decodeWord, mask_station, hst]
  | member =>
    refine splits_congr ?_ (fun x => ?_) (splits_comp (f := State.memberWord a b) (h := State.takeAck a ack)
      (fun x => mask_takeAck (.busy x) s a ack) ((kept_engine s.engine).takeAck a ack rfl)
      ⟨askQueue_takeAck s a ack, (kept_port s.port).takeAck a ack rfl⟩ (splits_memberWord a b _))
    · rw [State.decodeWord, hst]
    · rw [State.decodeWord, mask_station, hst]
  | quiet =>
    refine splits_congr (g := id) ?_ (fun x => ?_) (splits_of_mask (fun _ _ => rfl) s)
    · rw [State.decodeWord, hst]
      rfl
    · rw [State.decodeWord, mask_station, hst]
      rfl
  | leaving =>
    refine splits_congr (g := id) ?_ (fun x => ?_) (splits_of_mask (fun _ _ => rfl) s)
    · rw [State.decodeWord, hst]
      rfl
    · rw [State.decodeWord, mask_station, hst]
      rfl

theorem splits_receiveWord (a : Nat) (w : Word) (s : State) : Splits (State.receiveWord a w) s := by
  unfold State.receiveWord
  by_cases hw : oddOnes w = true
  · simp only [hw, if_true]
    refine splits_comp (f := fun s => match uplinkBody w with
      | none => (s.returnFromQuiet a).countBadWord a
      | some b => (s.returnFromQuiet a).decodeWord a (uplinkAck w) b) (h := State.markHeard a)
      (fun x => mask_markHeard (.busy x) s a) ((kept_engine s.engine).markHeard a rfl)
      ⟨askQueue_markHeard s a, (kept_port s.port).markHeard a rfl⟩ ?_
    generalize s.markHeard a = s
    refine splits_comp (f := fun s => match uplinkBody w with
      | none => s.countBadWord a
      | some b => s.decodeWord a (uplinkAck w) b) (h := State.returnFromQuiet a)
      (fun x => mask_returnFromQuiet (.busy x) s a) ((kept_engine s.engine).returnFromQuiet a rfl)
      ⟨askQueue_returnFromQuiet s a, (kept_port s.port).returnFromQuiet a rfl⟩ ?_
    cases uplinkBody w with
    | none => exact splits_of_mask (fun g s => mask_countBadWord (.ofEngine g) s a) _
    | some b => exact splits_decodeWord a _ b _
  · simp only [if_neg hw]
    exact splits_of_mask (fun g s => by rw [mask_markHeard, mask_countBadWord]) s

theorem splits_uplinkSlot (a : Nat) (x : Sense) (w : Word) (s : State) : Splits (State.uplinkSlot a x w) s := by
  cases x with
  | silent => exact splits_of_mask (fun g s => mask_silentUplink (.ofEngine g) s a) s
  | one => exact splits_receiveWord a w s
  | many => exact splits_of_mask (fun g s => mask_clashUplink (.ofEngine g) s a) s

/-! ## Slot events -/

theorem splits_closeSlot (n : Nat) (x : Sense) (w : Word) (s : State) : Splits (State.closeSlot n x w) s := by
  cases hn : slotClass n with
  | sync =>
    have h : State.closeSlot n x w = State.overheadSlot x := funext fun s => by rw [State.closeSlot, hn]
    exact h ▸ splits_of_mask (fun g s => mask_overheadSlot (.ofEngine g) s x) s
  | uplink =>
    have h : State.closeSlot n x w = State.uplinkSlot n x w := funext fun s => by rw [State.closeSlot, hn]
    exact h ▸ splits_uplinkSlot n x w s
  | downlink =>
    have h : State.closeSlot n x w = State.overheadSlot x := funext fun s => by rw [State.closeSlot, hn]
    exact h ▸ splits_of_mask (fun g s => mask_overheadSlot (.ofEngine g) s x) s
  | payload =>
    have h : State.closeSlot n x w = State.payloadSlot n x := funext fun s => by rw [State.closeSlot, hn]
    exact h ▸ splits_of_mask (fun g s => mask_payloadSlot (.ofEngine g) s n x) s

theorem splits_slotEventAt (n : Nat) (x : Sense) (w : Word) (s : State) : Splits (State.slotEventAt n x w) s := by
  rcases splits_closeSlot n x w s with ⟨hf, he⟩ | ⟨hd, hq⟩
  · refine .inl ⟨fun c => ?_, he⟩
    rw [State.slotEventAt, State.slotEventAt, hf, mask_goTo]
    rfl
  · exact .inr ⟨hd, hq⟩

theorem slotClass_uplink_iff {n : Nat} : slotClass n = .uplink ↔ 1 ≤ n ∧ n ≤ 47 := by
  unfold slotClass
  split_ifs <;> simp <;> omega

theorem Timer.place_running {t : Timer} {p : FramePlace} (h : t.timing = .running p) : t.place = some p := by
  simp [Timer.place, h]

/-- An uplink slot in progress is not reached by a frame event: those lead to slots 0 and 48 (R9, R143). -/
theorem reachSlot_of_slot {n : Nat} (h : s.timer.place = some (.slot n)) : s.reachSlot = s := by
  have he : s.endIfDue = s := by rw [State.endIfDue, h]
  have hs : s.startIfDue = s := by rw [State.startIfDue, h, if_neg nofun]
  rw [State.reachSlot, he, hs, State.arbitrateIfDue, h, if_neg nofun]

theorem place_goTo (s : State) (p : FramePlace) : (s.goTo p).timer.place = some p := rfl

/-- A frame start leads to slot 0, past any arbitration. -/
theorem place_startIfDue_arbitrateIfDue {n : Nat} (h : s.startIfDue.arbitrateIfDue.timer.place = some (.slot n)) :
    n = 0 ∨ n = 48 ∨ s.timer.place = some (.slot n) := by
  have harb : ∀ u : State, u.arbitrateIfDue.timer.place = some (.slot n) → n = 48 ∨ u.timer.place = some (.slot n) := by
    intro u hu
    unfold State.arbitrateIfDue at hu
    split at hu
    · rw [place_goTo] at hu
      cases hu
      exact .inl rfl
    · exact .inr hu
  rcases harb _ h with h | h
  · exact .inr (.inl h)
  · unfold State.startIfDue at h
    split at h
    · rw [State.frameStart, place_goTo] at h
      cases h
      exact .inl rfl
    · exact .inr (.inr h)

theorem place_of_reachSlot_uplink {n : Nat} (h : s.reachSlot.timer.place = some (.slot n)) (hn : slotClass n = .uplink) :
    s.timer.place = some (.slot n) := by
  rw [slotClass_uplink_iff] at hn
  have hplace : s.endIfDue.timer.place = some (.slot n) := by
    rcases place_startIfDue_arbitrateIfDue h with h | h | h
    · omega
    · omega
    · exact h
  unfold State.endIfDue at hplace
  split at hplace
  · exfalso
    rw [frameEnd_eq, State.timer_updTimer] at hplace
    unfold Timer.afterFrame at hplace
    simp only [Timer.place] at hplace
    split at hplace
    · nomatch hplace
    · rename_i p hp
      cases hplace
      split at hp <;> nomatch hp
  all_goals exact hplace

/-- A slot event is the ASK of an IDLE engine in an uplink slot, or does not see the engine. -/
theorem splits_slotEvent (x : Sense) (w : Word) (s : State) : Splits (State.slotEvent x w) s := by
  cases hp : s.reachSlot.timer.place with
  | none =>
    refine splits_congr ?_ (fun c => ?_) (splits_of_mask (fun g s => mask_reachSlot (.ofEngine g) s) s)
    · simp only [State.slotEvent, hp]
    · simp only [State.slotEvent, mask_reachSlot, mask_timer, hp]
  | some p =>
    cases p with
    | slot n =>
      by_cases hn : slotClass n = .uplink
      · have hs := place_of_reachSlot_uplink hp hn
        refine splits_congr ?_ (fun c => ?_) (splits_slotEventAt n x w s)
        · simp only [State.slotEvent, reachSlot_of_slot hs, hs]
        · simp only [State.slotEvent, mask_reachSlot, reachSlot_of_slot hs, mask_timer, hs]
      · have hclose : ∀ (g : Engine → Engine) (u : State), State.closeSlot n x w (u.mask (.ofEngine g)) = (u.closeSlot n x w).mask (.ofEngine g) := by
          intro g u
          unfold State.closeSlot
          cases hc : slotClass n with
          | sync => exact mask_overheadSlot _ _ _
          | uplink => exact absurd hc hn
          | downlink => exact mask_overheadSlot _ _ _
          | payload => exact mask_payloadSlot _ _ _ _
        refine splits_congr (g := fun s => s.reachSlot.slotEventAt n x w) ?_ (fun c => ?_) (splits_of_mask (fun g s => ?_) s)
        · simp only [State.slotEvent, hp]
        · simp only [State.slotEvent, mask_reachSlot, mask_timer, hp]
        · simp only [State.slotEventAt, mask_reachSlot, hclose, mask_timer, mask_goTo]
    | startDue =>
      refine splits_congr ?_ (fun c => ?_) (splits_of_mask (fun g s => mask_reachSlot (.ofEngine g) s) s)
      · simp only [State.slotEvent, hp]
      · simp only [State.slotEvent, mask_reachSlot, mask_timer, hp]
    | arbitrationDue =>
      refine splits_congr ?_ (fun c => ?_) (splits_of_mask (fun g s => mask_reachSlot (.ofEngine g) s) s)
      · simp only [State.slotEvent, hp]
      · simp only [State.slotEvent, mask_reachSlot, mask_timer, hp]
    | endDue p =>
      refine splits_congr ?_ (fun c => ?_) (splits_of_mask (fun g s => mask_reachSlot (.ofEngine g) s) s)
      · simp only [State.slotEvent, hp]
      · simp only [State.slotEvent, mask_reachSlot, mask_timer, hp]

theorem splits_uplinkWordEvent (w : Word) (s : State) : Splits (State.uplinkWordEvent w) s := by
  by_cases h : ∃ n, s.timer.place = some (.slot n) ∧ slotClass n = .uplink
  · obtain ⟨n, hp, hn⟩ := h
    refine splits_congr ?_ (fun c => ?_) (splits_slotEventAt n .one w s)
    · simp only [State.uplinkWordEvent, hp, hn, if_true]
    · simp only [State.uplinkWordEvent, mask_timer, hp, hn, if_true]
  · have hid : ∀ u : State, u.timer = s.timer → u.uplinkWordEvent w = u := by
      intro u hu
      unfold State.uplinkWordEvent
      rw [hu]
      split
      · rename_i n hp
        exact if_neg (fun hn => h ⟨n, hp, hn⟩)
      all_goals rfl
    exact splits_congr (g := id) (hid s rfl) (fun c => hid _ rfl) (splits_of_mask (fun _ _ => rfl) s)

/-! ## Every operation -/

theorem splits_operation {c : Instr} {f : State → State} (h : operationOf c = some f) (s : State) : Splits f s := by
  have request : ∀ e, Splits (State.request e) s := fun e => splits_of_mask (fun g s => mask_ofEngine_request g s e) s
  have uplink : ∀ w, Splits (State.uplinkWordEvent w) s := fun w => splits_uplinkWordEvent w s
  cases c with
  | deviceReset | resetRelease | placementTake | commitPoint => nomatch h
  | slotEvent act w => cases h; exact splits_slotEvent _ w s
  | keep | join | ask | drop | renewWord | leave => cases h; exact uplink _
  | create | resize | release | renew | setStation | evict | retireAll | lookupGrant | lookupSlot | lookupStation
  | listSlots | census | unknownOp => cases h; exact request _
  | highwayStart => cases h; exact splits_of_mask (fun g s => mask_highwayStart (.ofEngine g) s) s
  | frameStart => cases h; exact splits_of_mask (fun g s => by rw [mask_endIfDue, mask_startIfDue]) s
  | downlinkArbitration => cases h; exact splits_of_mask (fun g s => mask_arbitrateIfDue (.ofEngine g) s) s
  | frameEnd => cases h; exact splits_of_mask (fun g s => mask_endIfDue (.ofEngine g) s) s
  | taintExpired => cases h; exact splits_of_mask (f := State.expireTaint _) (fun g s => mask_takeDecay (.ofEngine g) s _) s
  | retryCountdownExpired =>
    cases h
    exact splits_of_mask (f := State.expireCountdown _) (fun g s => mask_takeCountdowns (.ofEngine g) s _) s
  | strayHoldoffExpired =>
    cases h
    exact splits_of_mask (f := State.expireHoldoff _) (fun g s => mask_takeCountdowns (.ofEngine g) s _) s
  | leaseTick => cases h; exact splits_of_mask (f := State.leaseTick) (fun g s => mask_takeTick (.ofEngine g) s _) s
  | leaseExpired => cases h; exact splits_of_mask (f := State.leaseExpired _) (fun g s => mask_takeTick (.ofEngine g) s _) s
  | departureComplete => cases h; exact splits_of_mask (fun g s => mask_departIfDone (.ofEngine g) s _) s
  | rqpost => cases h; exact splits_of_mask mask_ofEngine_post s
  | rspop => cases h; exact splits_of_mask mask_ofEngine_popResult s
  | runRequest | stopRequest | intrusionCountWrite | intFlagsRead | intFlagsWrite | intEnableWrite =>
    cases h; exact splits_of_mask (fun _ _ => rfl) s
  | frameLengthWrite w => cases h; exact splits_of_mask (fun g s => mask_writeFrameLength (.ofEngine g) s w) s
  | epochLeadWrite w => cases h; exact splits_of_mask (fun g s => mask_writeEpochLead s (.ofEngine g) w) s
  | presenceLimitsWrite w => cases h; exact splits_of_mask (fun g s => mask_writePresenceLimits s (.ofEngine g) w) s
  | noticeTimingWrite w => cases h; exact splits_of_mask (fun g s => mask_writeNoticeTiming s (.ofEngine g) w) s
  | faultLimitWrite w => cases h; exact splits_of_mask (fun g s => mask_writeFaultLimit s (.ofEngine g) w) s
  | registerWrite a w => cases h; exact splits_of_mask (fun g s => mask_ofEngine_busWrite g s a w) s

/-! ## The take and the event (log 5) -/

theorem event_eq_of_not_precedes {f : State → State} (h : s.inReset = false)
    (hp : s.precedesTake (f s) = false ∨ s.catchUp = s) : s.event f = .next (f s.catchUp) := by
  rw [State.event, h]
  rcases hp with hp | hp
  · simp [hp]
  · simp [hp]

/-- An event after every take that was due. -/
theorem event_catchUp (f : State → State) (h : s.inReset = false) : s.catchUp.event f = .next (f s.catchUp) :=
  event_next_of_not_due ((inReset_catchUp s).trans h) (takeDue_catchUp s)

end Sys2Proof.Machine

namespace Sys2Proof.Proofs

open Sys2Proof.Machine

/-- Settles O3: takes end where none is due, whatever is allowed; an event without a take behind it comes after them, and
one with a take behind it falls together with it unless it brings the engine work. -/
theorem dueTakesComeFirst : Obligations.DueTakesComeFirst := by
  refine ⟨takeDue_catchUp, fun c s hr hdr hrr htake hq => ?_, fun c s x hr hq hdr hrr htake hcp => ?_⟩
  · have hcatch : ∃ f : State → State, ∀ u : State, u.inReset = false → u.pending = s.pending →
        exec c u = .next (f u.catchUp) := by
      cases ho : operationOf c with
      | some f =>
        rcases hq with hq | rfl
        · exact ⟨f, fun u hu hp => (exec_operation ho u).trans (event_next hu (by rw [hp]; exact hq))⟩
        · nomatch ho
      | none =>
        rcases operationOf_eq_none ho with rfl | ⟨f, rfl⟩ | rfl | rfl
        · exact absurd rfl hdr
        · exact absurd rfl (hrr f)
        · exact absurd rfl htake
        · exact ⟨State.commitPoint, fun u hu _ => by simp [exec, execCommitPoint, hu]⟩
    obtain ⟨f, hf⟩ := hcatch
    refine ⟨?_, s.takeOnce, ?_, ?_, takeOnce_of_not_due⟩
    · rw [hf s hr rfl, hf s.catchUp ((inReset_catchUp s).trans hr) (pending_catchUp s), catchUp_catchUp]
    · simp [exec, execPlacementTake, hr]
    · rw [hf s hr rfl, hf s.takeOnce ((inReset_takeOnce s).trans hr) (pending_takeOnce s), catchUp_takeOnce]
  · cases ho : operationOf c with
    | none =>
      rcases operationOf_eq_none ho with rfl | ⟨f, rfl⟩ | rfl | rfl
      · exact absurd rfl hdr
      · exact absurd rfl (hrr f)
      · exact absurd rfl htake
      · exact absurd rfl hcp
    | some f =>
      have hbusy : exec c (s.mask (.busy x)) = .next (f (s.mask (.busy x))) :=
        (exec_operation ho _).trans (event_next_of_not_due hr (takeDue_of_busy rfl))
      refine ⟨f (s.mask (.busy x)), hbusy, ?_⟩
      rw [exec_operation ho, exec_operation ho, event_catchUp f hr]
      rcases splits_operation ho s with ⟨hmask, hengine⟩ | ⟨hd, hgrows⟩
      · have hbrought : s.broughtWork (f (s.mask (.busy x))) = s.broughtWork (f s) := by
          rw [hmask]
          rfl
        rw [hbrought]
        refine ⟨fun hb => ?_, fun hb => ?_⟩
        · rw [event_next_of_precedes hr hq hb, hmask, ← hengine]
          rfl
        · exact event_eq_of_not_precedes hr (.inl (by simp [State.precedesTake, hb]))
      · have hb : s.broughtWork (f (s.mask (.busy x))) = true := by simp [State.broughtWork, hgrows x]
        rw [hb]
        exact ⟨nofun, fun _ => event_eq_of_not_precedes hr (.inr (catchUp_of_not_due hd))⟩

end Sys2Proof.Proofs
end

section
/-! The takes of the Placement Engine (R58 to R63): which work is taken (O31), the checks (O32), the reservation (O33) and
the take of a RESIZE (O34). -/

namespace Sys2Proof.Machine

variable {s : State}

/-! ## Which work an IDLE engine takes (R59) -/

theorem exec_placementTake (h : s.inReset = false) : exec .placementTake s = .next s.takeOnce := by
  simp [exec, execPlacementTake, h]

theorem takeOnce_local {e : Quad} (hidle : s.engine.context = none) (he : s.port.inProgress = some e)
    (hk : s.askQueue = [] ∨ s.engine.lastKind = .uplink) : s.takeOnce = s.takeLocal e := by
  have hw : s.workChosen = some .localBus := by
    rcases hk with hk | hk <;> simp [State.workChosen, he, hk]
  unfold State.takeOnce
  rw [hidle, hw, he]
  rfl

theorem takeOnce_uplink {q : Ask} {r : List Ask} (hidle : s.engine.context = none) (hq : s.askQueue = q :: r)
    (hk : s.port.inProgress = none ∨ s.engine.lastKind = .localBus) :
    s.takeOnce = State.takeAsk q { s.noteKind .uplink with askQueue := r } := by
  have hw : s.workChosen = some .uplink := by
    rcases hk with hk | hk
    · simp [State.workChosen, hk, hq]
    · cases hp : s.port.inProgress <;> simp [State.workChosen, hk, hq, hp]
  unfold State.takeOnce
  rw [hidle, hw, hq]
  rfl

/-! ## Handing a result back (R163, R166) -/

theorem servePort_of_no_requests (h : s.port.requests = []) : s.servePort = s := by
  unfold State.servePort
  rw [h]
  rfl

/-- With no further request waiting, a result is posted and the port is IDLE. -/
theorem handBack_of_no_requests (e : Quad) (r : Answer) (h : s.port.requests = []) : s.handBack e r =
    { s with port := { s.port with inProgress := none, results := s.port.results ++ [resultEntry e 0 r] }
             ints := s.ints.raise .result } := servePort_of_no_requests h

theorem mask_ofEngine_handBack (g : Engine → Engine) (s : State) (e : Quad) (r : Answer) :
    (s.mask (.ofEngine g)).handBack e r = (s.handBack e r).mask (.ofEngine g) := by
  unfold State.handBack
  rw [mask_ofEngine_updPort, mask_raise, mask_ofEngine_servePort]

theorem engine_handBack (s : State) (e : Quad) (r : Answer) : (s.handBack e r).engine = s.engine :=
  (indifferent_of_mask (fun g s => mask_ofEngine_handBack g s e r) s).2

theorem lastKind_takeLocal (s : State) (e : Quad) : (s.takeLocal e).engine.lastKind = .localBus := by
  unfold State.takeLocal
  split
  · rw [takeResize_eq]
    split
    · rw [engine_handBack]
      rfl
    · rfl
  · unfold State.takeCreate
    dsimp only
    split
    · rw [engine_handBack]
      rfl
    · rfl

theorem askQueue_takeLocal (e : Quad) (h : s.port.requests = []) : (s.takeLocal e).askQueue = s.askQueue := by
  unfold State.takeLocal
  split
  · rw [takeResize_eq]
    split
    · rw [handBack_of_no_requests (s := s.noteKind .localBus) _ _ h]
      rfl
    · rfl
  · unfold State.takeCreate
    dsimp only
    split
    · rw [handBack_of_no_requests (s := s.noteKind .localBus) _ _ h]
      rfl
    · rfl

/-! ## The notices of an ask -/

theorem handNotice_updAsk (a b : Nat) (f : AskRecord → AskRecord) (n : Notice) (s : State) :
    (s.updAsk a f).handNotice b n = (s.handNotice b n).updAsk a f := by
  unfold State.handNotice
  have hstation : (s.updAsk a f).station b = s.station b := rfl
  have hmailbox : (s.updAsk a f).mailbox b = s.mailbox b := rfl
  rw [hstation, hmailbox]
  split
  · split <;> rfl
  · rfl

theorem askQueue_handNotice (a : Nat) (n : Notice) (s : State) : (s.handNotice a n).askQueue = s.askQueue := by
  unfold State.handNotice
  split
  · split <;> rfl
  · rfl

theorem asks_handNotice (a : Nat) (n : Notice) (s : State) : (s.handNotice a n).asks = s.asks := by
  unfold State.handNotice
  split
  · split <;> rfl
  · rfl

theorem takeAsk_refused {q : Ask} {st : Status}
    (h : firstFailure (s.askChecks q.station (askCount q.fields) (Pattern.ofBits q.fields.pattern) q.fields.cls) = some st) :
    s.takeAsk q = (s.setAsk q.station .none).answerAsk q.station q.fields.seq (.refusedAsk st q.fields.seq) := by
  simp only [State.takeAsk, h]

theorem takeAsk_placed {q : Ask}
    (h : firstFailure (s.askChecks q.station (askCount q.fields) (Pattern.ofBits q.fields.pattern) q.fields.cls) = none) :
    s.takeAsk q = (s.setAsk q.station (.inFlight q.fields.seq)).placeNew (fun i => .ask i q.fields.seq q.fields.leaseCode)
      (grantOfAsk q.fields ((Pattern.ofBits q.fields.pattern).getD .any)) q.station := by
  simp only [State.takeAsk, h]

/-- What a take of an ask leaves of the kinds taken, of the queue and of the port. -/
theorem takeAsk_leaves (s : State) (q : Ask) : (s.takeAsk q).engine.lastKind = s.engine.lastKind
    ∧ (s.takeAsk q).askQueue = s.askQueue ∧ (s.takeAsk q).port = s.port := by
  unfold State.takeAsk
  dsimp only
  split
  · unfold State.answerAsk State.setAsk
    rw [handNotice_updAsk]
    refine ⟨?_, askQueue_handNotice _ _ _, ?_⟩
    · show (s.handNotice q.station _).engine.lastKind = _
      rw [(kept_engine s.engine).handNotice _ _ rfl]
    · exact (kept_port s.port).handNotice _ _ rfl
  · exact ⟨rfl, rfl, rfl⟩

/-! ## The checks (R60, R61) -/

theorem firstFailure_cons (b : Bool) (st : Status) (l : List (Bool × Status)) :
    firstFailure ((b, st) :: l) = if b then firstFailure l else some st := by
  cases b <;> rfl

theorem inMembership_iff {x : StationState} : x.inMembership = true ↔ x = .member ∨ x = .quiet := by
  cases x <;> simp [StationState.inMembership]

theorem isStation_iff {a : Nat} : isStation a = true ↔ 1 ≤ a ∧ a ≤ 47 := by
  unfold isStation Config.stationCount
  rw [Bool.and_eq_true, decide_eq_true_iff, decide_eq_true_iff]

theorem ofBits_isSome_iff {p : BitVec 2} : (Pattern.ofBits p).isSome = true ↔ p ≠ 3 := by
  revert p
  decide

/-- The fields of a result's word 0, and the rest of one that refuses (R165, R193). -/
theorem headed_resultEntry (e : Quad) (b : BitVec 8) (r : Answer) : (resultEntry e b r).headed e.opCode r.status b e.tag := by
  simp [Quad.headed, resultEntry, resultWord0]

theorem refuses_resultEntry (e : Quad) (st : Status) : (resultEntry e 0 (.refused st)).refuses e.opCode st e.tag :=
  ⟨headed_resultEntry e 0 (.refused st), rfl, rfl, rfl⟩

theorem opCode_of_op {e : Quad} : (e.op = .create → e.opCode = 1) ∧ (e.op = .resize → e.opCode = 2) := by
  have h : ∀ c : BitVec 4, (Op.ofCode c = .create → c = 1) ∧ (Op.ofCode c = .resize → c = 2) := by decide
  exact h e.opCode

end Sys2Proof.Machine

namespace Sys2Proof.Proofs

open Sys2Proof.Machine

/-- Settles O31. -/
theorem theArbiterAlternates : Obligations.TheArbiterAlternates := by
  intro s hr
  rw [exec_placementTake hr]
  refine ⟨fun hb => ?_, fun hi hq => ?_, fun hidle e he hk => ⟨_, rfl, ?_, ?_⟩, fun hidle q r hq hk => ⟨_, rfl, ?_⟩⟩
  · rw [takeOnce_of_not_due (takeDue_of_busy hb)]
  · rw [takeOnce_of_not_due (takeDue_eq_false_iff.2 (.inr ⟨hi, hq⟩))]
  · rw [takeOnce_local hidle he hk, lastKind_takeLocal]
  · rw [takeOnce_local hidle he hk]
    exact askQueue_takeLocal e
  · rw [takeOnce_uplink hidle hq hk]
    exact takeAsk_leaves _ q

end Sys2Proof.Proofs
end

section
/-! The checks at the take (O32), the reservation of a new grant (O33), the take of a RESIZE (O34), and the search they
make: its candidates and what it reads of the state (R60 to R64, R72, R73). -/

namespace Sys2Proof.Machine

variable {s t : State}

/-! ## The candidates (R72, R73) -/

theorem insertCandidate_eq_orderedInsert (s : State) (i : Nat) (l : List Nat) :
    s.insertCandidate i l = l.orderedInsert (fun x y => s.comesBefore x y = true) i := by
  induction l with
  | nil => rfl
  | cons j l ih => rw [State.insertCandidate, List.orderedInsert, ih]

theorem candidates_eq_insertionSort (s : State) (self a : Nat) (c : BitVec 2) : s.candidates self a c =
    ((List.range Config.grantCount).filter (s.isCandidate self a c)).insertionSort (fun x y => s.comesBefore x y = true) := by
  unfold State.candidates List.insertionSort
  congr 1
  funext i l
  exact insertCandidate_eq_orderedInsert s i l

theorem mem_candidates {self a i : Nat} {c : BitVec 2} :
    i ∈ s.candidates self a c ↔ i < Config.grantCount ∧ s.isCandidate self a c i = true := by
  rw [candidates_eq_insertionSort, List.mem_insertionSort, List.mem_filter, List.mem_range]

theorem isCandidate_iff {self a i : Nat} {c : BitVec 2} : s.isCandidate self a c i = true ↔
    (s.grant i).preemptible = true ∧ (s.grant i).cls < c ∧ 0 < (s.grant i).planCount
      ∧ (s.grant i).state.retirable = true ∧ (s.grant i).owner ≠ some a ∧ i ≠ self := by
  simp [State.isCandidate, and_assoc]

/-! ## What a search reads of the state -/

/-- The states agree on what a search for record `own` reads: the maps, the POLICY register and every other record. -/
structure SearchesAlike (own : Nat) (s t : State) : Prop where
  map : t.map = s.map
  cfg : t.cfg = s.cfg
  grants : ∀ j, j ≠ own → t.grant j = s.grant j

section

variable {own : Nat} (h : SearchesAlike own s t)

include h

theorem SearchesAlike.available (added : List Nat) : t.available own added = s.available own added := by
  funext n
  simp only [State.available, State.planAt, State.taintAt, h.map]

theorem SearchesAlike.isCandidate (a : Nat) (c : BitVec 2) : t.isCandidate own a c = s.isCandidate own a c := by
  funext i
  by_cases hi : i = own
  · simp [State.isCandidate, hi]
  · simp only [State.isCandidate, h.grants i hi]

theorem SearchesAlike.candidates (a : Nat) (c : BitVec 2) : t.candidates own a c = s.candidates own a c := by
  rw [candidates_eq_insertionSort, candidates_eq_insertionSort, h.isCandidate]
  have hself : ∀ x ∈ (List.range Config.grantCount).filter (s.isCandidate own a c), x ≠ own := fun x hx =>
    (isCandidate_iff.1 (List.mem_filter.1 hx).2).2.2.2.2.2
  have hsort := List.map_insertionSort (r := fun x y => t.comesBefore x y = true) (s := fun x y => s.comesBefore x y = true)
    id ((List.range Config.grantCount).filter (s.isCandidate own a c)) (fun x hx y hy => by
      simp only [State.comesBefore, h.grants x (hself x hx), h.grants y (hself y hy), id])
  simpa using hsort

theorem SearchesAlike.victims {added : List Nat} (hadded : ∀ i ∈ added, i ≠ own) (slots : List Nat) :
    t.victims added slots = s.victims added slots := by
  unfold State.victims
  simp only [State.planAt, h.map]
  refine List.map_congr_left (fun i hi => ?_)
  simp only [State.handle, h.grants i (hadded i (List.mem_filter.1 hi).1)]

theorem SearchesAlike.search (a : Nat) (c : BitVec 2) (find : (Nat → Bool) → Option (List Nat)) :
    t.search own a c find = s.search own a c find := by
  have hpass : t.preemptivePass own (s.candidates own a c) find = s.preemptivePass own (s.candidates own a c) find := by
    unfold State.preemptivePass
    simp only [h.available, List.findSome?_map]
    congr 2
    funext k
    have hown : ∀ i ∈ ((s.candidates own a c).take Config.candidateLimit).take (k + 1), i ≠ own := fun i hi =>
      (isCandidate_iff.1 (mem_candidates.1 (List.mem_of_mem_take (List.mem_of_mem_take hi))).2).2.2.2.2.2
    simp only [Function.comp, h.victims hown]
  unfold State.search
  rw [h.available, h.cfg, h.candidates, hpass]

end

theorem search_of_found {own a : Nat} {c : BitVec 2} {find : (Nat → Bool) → Option (List Nat)} {slots : List Nat}
    (h : find (s.available own []) = some slots) : s.search own a c find = .chosen slots [] := by
  simp only [State.search, h]

/-! ## A resize that needs no search (R68 to R70) -/

theorem resizeSearch_same (p : Pattern) (c : LengthCode) (avail : Nat → Bool) (own : List Nat) :
    resizeSearch p c avail own own.length = some own := if_pos rfl

theorem resizeSearch_smaller {p : Pattern} {own : List Nat} {n : Nat} (c : LengthCode) (avail : Nat → Bool)
    (hp : p ≠ .even) (hn : n < own.length) : resizeSearch p c avail own n = some (own.take n) := by
  unfold resizeSearch
  rw [if_neg hn.ne]
  cases p with
  | any => exact if_pos hn.le
  | block => exact if_pos hn.le
  | even => exact absurd rfl hp

/-! ## A new grant's reservation (R18, R63) -/

theorem searchesAlike_reserve (i a : Nat) (g : Grant) (s : State) : SearchesAlike i s (s.reserve i g a) :=
  ⟨rfl, rfl, fun _ hj => s.grant_updGrant_other (g.reservedOver a) hj⟩

/-- The placement of a new grant, its search made on the state before the take. -/
def State.newContext (kind : Nat → PlacementKind) (g : Grant) (a : Nat) (s : State) : Context :=
  { kind := kind (s.freeQueue.headD 0), station := a, newCount := g.requested
    outcome := s.search (s.freeQueue.headD 0) a g.cls (fun avail => freshSearch g.pattern s.timer.code avail g.requested) }

theorem SearchesAlike.outcome_newContext (h : SearchesAlike (t.freeQueue.headD 0) s t) (ht : t.timer = s.timer)
    (kind : Nat → PlacementKind) (g : Grant) (a : Nat) : (t.newContext kind g a).outcome =
      s.search (t.freeQueue.headD 0) a g.cls (fun avail => freshSearch g.pattern s.timer.code avail g.requested) := by
  rw [← h.search, ← ht]
  rfl

theorem engine_placeNew_search (kind : Nat → PlacementKind) (g : Grant) (a : Nat) (s : State) :
    (s.placeNew kind g a).engine = { s.engine with context := some (s.newContext kind g a) } := by
  unfold State.newContext
  rw [← (searchesAlike_reserve (s.freeQueue.headD 0) a g s).search]
  rfl

/-- The take of a RESIZE searches for its owner `a`, on the state before the take (R63, R68). -/
theorem outcome_resizeContext {h : Handle} {a : Nat} (k : WorkKind) (n : Nat)
    (ha : (s.grant h.index.toNat).owner = some a) : ((s.noteKind k).resizeContext h n).outcome =
      s.search h.index.toNat a (s.grant h.index.toNat).cls (fun avail =>
        resizeSearch (s.grant h.index.toNat).pattern s.timer.code avail (s.planSlots h.index.toNat) n) := by
  have halike : SearchesAlike h.index.toNat s (s.noteKind k) := ⟨rfl, rfl, fun _ _ => rfl⟩
  have howner : ((s.noteKind k).grant h.index.toNat).owner.getD 0 = a := congrArg (·.getD 0) ha
  rw [← halike.search]
  unfold State.resizeContext
  rw [howner]
  rfl

theorem takeLocal_create {e : Quad} (h : e.op = .create) : s.takeLocal e = (s.noteKind .localBus).takeCreate e := by
  unfold State.takeLocal
  rw [h]
  rfl

theorem takeLocal_resize {e : Quad} (h : e.op = .resize) : s.takeLocal e = (s.noteKind .localBus).takeResize e := by
  unfold State.takeLocal
  rw [h]
  rfl

theorem takeCreate_refused {e : Quad} {st : Status} (h : firstFailure
    (s.createChecks e.station e.createFields.count.toNat (Pattern.ofBits e.createFields.pattern)) = some st) :
    s.takeCreate e = s.handBack e (.refused st) := by
  simp only [State.takeCreate, h]

theorem takeCreate_placed {e : Quad} {p : Pattern} (hp : Pattern.ofBits e.createFields.pattern = some p)
    (h : firstFailure (s.createChecks e.station e.createFields.count.toNat (some p)) = none) :
    s.takeCreate e = s.placeNew (fun i => .create i e.createFields.lease) (grantOfCreate e.createFields p e.tag) e.station := by
  simp only [State.takeCreate, hp, h, Option.getD_some]

theorem takeResize_refused {e : Quad} {st : Status} (h : firstFailure (s.resizeChecks e.handle e.newCount.toNat) = some st) :
    s.takeResize e = s.handBack e (.refused st) := by
  rw [takeResize_eq, h]

theorem takeResize_begins {e : Quad} (h : firstFailure (s.resizeChecks e.handle e.newCount.toNat) = none) :
    s.takeResize e = s.begin (s.resizeContext e.handle e.newCount.toNat) := by
  rw [takeResize_eq, h]

/-- A LOCAL request that fails a check, no further request waiting (R62, R163). -/
theorem handBack_refused (e : Quad) (st : Status) (h : s.port.requests = []) :
    ∃ q : Quad, q.refuses e.opCode st e.tag ∧ (s.noteKind .localBus).handBack e (.refused st) =
      { s with engine := { s.engine with lastKind := .localBus }
               port := { s.port with inProgress := none, results := s.port.results ++ [q] }
               ints := s.ints.raise .result } :=
  ⟨_, refuses_resultEntry e st, handBack_of_no_requests (s := s.noteKind .localBus) e _ h⟩

end Sys2Proof.Machine

namespace Sys2Proof.Proofs

open Sys2Proof.Machine

/-- The first of the checks of a CREATE that fails (R60). -/
theorem createChecks_fail {s : State} {a n : Nat} {b : BitVec 2} {st : Status}
    (h : (¬ (1 ≤ a ∧ a ≤ 47 ∧ ((s.station a).state = .member ∨ (s.station a).state = .quiet)) ∧ st = .notMember)
      ∨ ((1 ≤ a ∧ a ≤ 47 ∧ ((s.station a).state = .member ∨ (s.station a).state = .quiet)) ∧
          (((s.station a).suspended = true ∧ st = .suspended)
            ∨ ((s.station a).suspended = false ∧ ¬ (1 ≤ n ∧ n ≤ 64 ∧ b ≠ 3) ∧ st = .badRequest)
            ∨ ((s.station a).suspended = false ∧ (1 ≤ n ∧ n ≤ 64 ∧ b ≠ 3) ∧
                ((Config.grantLimit ≤ (s.station a).held ∧ st = .grantLimit)
                  ∨ ((s.station a).held < Config.grantLimit ∧ (s.station a).quota.toNat < (s.station a).planned + n ∧ st = .quota)
                  ∨ ((s.station a).held < Config.grantLimit ∧ (s.station a).planned + n ≤ (s.station a).quota.toNat
                      ∧ s.freeQueue = [] ∧ st = .tableFull)))))) :
    firstFailure (s.createChecks a n (Pattern.ofBits b)) = some st := by
  simp only [State.createChecks, firstFailure_cons, Bool.and_eq_true, isStation_iff, inMembership_iff, Bool.not_eq_true',
    countInRange_iff, ofBits_isSome_iff, decide_eq_true_iff, and_assoc]
  rcases h with ⟨hm, rfl⟩ | ⟨hm, ⟨hs, rfl⟩ | ⟨hs, hb, rfl⟩ | ⟨hs, hb, ⟨hh, rfl⟩ | ⟨hh, hq, rfl⟩ | ⟨hh, hq, hf, rfl⟩⟩⟩
  · rw [if_neg hm]
  · rw [if_pos hm, hs]
    rfl
  · rw [if_pos hm, if_pos hs, if_neg hb]
  · rw [if_pos hm, if_pos hs, if_pos hb, if_neg (Nat.not_lt.2 hh)]
  · rw [if_pos hm, if_pos hs, if_pos hb, if_pos hh, if_neg (Nat.not_le.2 hq)]
  · rw [if_pos hm, if_pos hs, if_pos hb, if_pos hh, if_pos hq, hf]
    rfl

/-- The first of the checks of an ASK that fails (R60). -/
theorem askChecks_fail {s : State} {a : Nat} {f : AskFields} {st : Status}
    (h : ((s.station a).state ≠ .member ∧ st = .notMember)
      ∨ ((s.station a).state = .member ∧ (s.station a).suspended = true ∧ st = .suspended)
      ∨ ((s.station a).state = .member ∧ (s.station a).suspended = false ∧ (s.station a).maxClass < f.cls ∧ st = .cls)
      ∨ ((s.station a).state = .member ∧ (s.station a).suspended = false ∧ f.cls ≤ (s.station a).maxClass
          ∧ f.pattern = 3 ∧ st = .badRequest)
      ∨ ((s.station a).state = .member ∧ (s.station a).suspended = false ∧ f.cls ≤ (s.station a).maxClass
          ∧ f.pattern ≠ 3 ∧
          ((Config.grantLimit ≤ (s.station a).held ∧ st = .grantLimit)
            ∨ ((s.station a).held < Config.grantLimit ∧ (s.station a).quota.toNat < (s.station a).planned + askCount f
                ∧ st = .quota)
            ∨ ((s.station a).held < Config.grantLimit ∧ (s.station a).planned + askCount f ≤ (s.station a).quota.toNat
                ∧ s.freeQueue = [] ∧ st = .tableFull)))) :
    firstFailure (s.askChecks a (askCount f) (Pattern.ofBits f.pattern) f.cls) = some st := by
  have hcount : countInRange (askCount f) = true := countInRange_iff.2 ⟨Nat.le_add_left 1 _, f.countLessOne.isLt⟩
  simp only [State.askChecks, firstFailure_cons, beq_iff_eq, Bool.not_eq_true', hcount, Bool.true_and, ofBits_isSome_iff,
    decide_eq_true_iff]
  rcases h with ⟨hm, rfl⟩ | ⟨hm, hs, rfl⟩ | ⟨hm, hs, hc, rfl⟩ | ⟨hm, hs, hc, hp, rfl⟩ | ⟨hm, hs, hc, hp, hrest⟩
  · rw [if_neg hm]
  · rw [if_pos hm, hs]
    rfl
  · rw [if_pos hm, if_pos hs, if_neg (BitVec.not_le.2 hc)]
  · rw [if_pos hm, if_pos hs, if_pos hc, if_neg (not_not.2 hp)]
  · rw [if_pos hm, if_pos hs, if_pos hc, if_pos hp]
    rcases hrest with ⟨hh, rfl⟩ | ⟨hh, hq, rfl⟩ | ⟨hh, hq, hf, rfl⟩
    · rw [if_neg (Nat.not_lt.2 hh)]
    · rw [if_pos hh, if_neg (Nat.not_le.2 hq)]
    · rw [if_pos hh, if_pos hq, hf]
      rfl

theorem createChecks_pass {s : State} {a n : Nat} {p : Option Pattern} (h1 : 1 ≤ a) (h47 : a ≤ 47)
    (hm : (s.station a).state = .member ∨ (s.station a).state = .quiet) (hs : (s.station a).suspended = false)
    (hn : 1 ≤ n ∧ n ≤ 64) (hp : p.isSome = true) (hh : (s.station a).held < Config.grantLimit)
    (hq : (s.station a).planned + n ≤ (s.station a).quota.toNat) (hf : s.freeQueue.isEmpty = false) :
    firstFailure (s.createChecks a n p) = none := by
  simp only [State.createChecks, firstFailure_cons, Bool.and_eq_true, isStation_iff, inMembership_iff, Bool.not_eq_true',
    countInRange_iff, decide_eq_true_iff]
  rw [if_pos ⟨⟨h1, h47⟩, hm⟩, if_pos hs, if_pos ⟨hn, hp⟩, if_pos hh, if_pos hq, if_pos hf]
  rfl

theorem askChecks_pass {s : State} {a n : Nat} {p : Option Pattern} {c : BitVec 2} (hm : (s.station a).state = .member)
    (hs : (s.station a).suspended = false) (hc : c ≤ (s.station a).maxClass) (hn : 1 ≤ n ∧ n ≤ 64)
    (hp : p.isSome = true) (hh : (s.station a).held < Config.grantLimit)
    (hq : (s.station a).planned + n ≤ (s.station a).quota.toNat) (hf : s.freeQueue.isEmpty = false) :
    firstFailure (s.askChecks a n p c) = none := by
  simp only [State.askChecks, firstFailure_cons, beq_iff_eq, Bool.and_eq_true, Bool.not_eq_true', countInRange_iff,
    decide_eq_true_iff]
  rw [if_pos hm, if_pos hs, if_pos hc, if_pos ⟨hn, hp⟩, if_pos hh, if_pos hq, if_pos hf]
  rfl

/-- The first of the checks of a RESIZE that fails (R60, R61). -/
theorem resizeChecks_fail {s : State} {h : Handle} {g : Grant} {n : Nat} {st : Status} (hg : g = s.grant h.index.toNat)
    (hfail : (s.handlePasses h = false ∧ st = .staleHandle)
      ∨ (s.handlePasses h = true ∧ g.state = .draining ∧ st = .retiring)
      ∨ (s.handlePasses h = true ∧ g.state ≠ .draining ∧ ∃ a r, g.owner = some a ∧ r = s.station a
        ∧ ((¬ (r.state = .member ∨ r.state = .quiet) ∧ st = .notMember)
          ∨ ((r.state = .member ∨ r.state = .quiet) ∧
            ((r.suspended = true ∧ st = .suspended)
              ∨ (r.suspended = false ∧ ¬ (1 ≤ n ∧ n ≤ 64) ∧ st = .badRequest)
              ∨ (r.suspended = false ∧ (1 ≤ n ∧ n ≤ 64) ∧ g.planCount < n
                ∧ r.quota.toNat < r.planned + (n - g.planCount) ∧ st = .quota)))))) :
    firstFailure (s.resizeChecks h n) = some st := by
  simp only [State.resizeChecks, firstFailure_cons, ← hg, bne_iff_ne, Bool.and_eq_true, Bool.or_eq_true, Bool.not_eq_true',
    inMembership_iff, countInRange_iff, decide_eq_true_iff]
  rcases hfail with ⟨hp, rfl⟩ | ⟨hp, hd, rfl⟩ | ⟨hp, hd, a, r, ha, rfl, hrest⟩
  · rw [hp]
    rfl
  · rw [if_pos hp, if_neg (not_not.2 hd)]
  · rw [if_pos hp, if_pos hd, ha, Option.getD_some]
    rcases hrest with ⟨hm, rfl⟩ | ⟨hm, ⟨hs, rfl⟩ | ⟨hs, hn, rfl⟩ | ⟨hs, hn, hk, hq, rfl⟩⟩
    · rw [if_neg (fun h => hm h.2)]
    · rw [if_pos ⟨rfl, hm⟩, hs]
      rfl
    · rw [if_pos ⟨rfl, hm⟩, if_pos hs, if_neg hn]
    · rw [if_pos ⟨rfl, hm⟩, if_pos hs, if_pos hn, if_neg (by omega)]

theorem resizeChecks_pass {s : State} {h : Handle} {g : Grant} {a n : Nat} (hg : g = s.grant h.index.toNat)
    (hp : s.handlePasses h = true) (hd : g.state ≠ .draining) (ha : g.owner = some a)
    (hm : (s.station a).state = .member ∨ (s.station a).state = .quiet) (hs : (s.station a).suspended = false)
    (hn : 1 ≤ n ∧ n ≤ 64)
    (hq : n ≤ g.planCount ∨ (s.station a).planned + (n - g.planCount) ≤ (s.station a).quota.toNat) :
    firstFailure (s.resizeChecks h n) = none := by
  simp only [State.resizeChecks, firstFailure_cons, ← hg, bne_iff_ne, Bool.and_eq_true, Bool.or_eq_true, Bool.not_eq_true',
    inMembership_iff, countInRange_iff, decide_eq_true_iff]
  rw [if_pos hp, if_pos hd, ha, Option.getD_some, if_pos ⟨rfl, hm⟩, if_pos hs, if_pos hn, if_pos hq]
  rfl

/-- Settles O32. -/
theorem newTakesAreChecked : Obligations.NewTakesAreChecked := by
  refine ⟨fun s e st hr hidle he hk hop hq hfail => ?_, fun s q rest st hr hidle hq hk hfail => ?_⟩
  · obtain ⟨r, hrefuses, heq⟩ := handBack_refused (s := s) e st hq
    rw [opCode_of_op.1 hop] at hrefuses
    refine ⟨_, r, (exec_placementTake hr).trans (congrArg _ ?_), hrefuses, heq⟩
    rw [takeOnce_local hidle he hk, takeLocal_create hop,
      takeCreate_refused (s := s.noteKind .localBus) (createChecks_fail (s := s) hfail)]
  · refine ⟨_, _, exec_placementTake hr, rfl, ?_⟩
    rw [takeOnce_uplink hidle hq hk,
      takeAsk_refused (s := { s.noteKind .uplink with askQueue := rest }) (askChecks_fail (s := s) hfail)]
    unfold State.answerAsk State.setAsk
    rw [handNotice_updAsk]
    refine ⟨?_, fun b hb => ?_, rfl⟩
    · rw [State.ask_updAsk_same, State.ask_updAsk_same]
    · rw [State.ask_updAsk, if_neg hb, State.ask_updAsk, if_neg hb]
      exact congrArg (fun l => Table.get AskRecord.fresh l b) (asks_handNotice _ _ _)

/-- Settles O33. -/
theorem takesReserve : Obligations.TakesReserve := by
  refine ⟨fun s e i rest p hr hidle he hk hop h1 h47 hm hs hc1 hc64 hp hh hquota hf => ?_,
    fun s q rest i free p hr hidle hq hk hm hs hc hp hh hquota hf => ?_⟩
  · obtain ⟨rfl, rfl⟩ : s.freeQueue.headD 0 = i ∧ s.freeQueue.tail = rest := by rw [hf]; exact ⟨rfl, rfl⟩
    have hchecks := createChecks_pass (s := s) (p := some p) h1 h47 hm hs ⟨hc1, hc64⟩ rfl hh hquota (by rw [hf]; rfl)
    have htake : s.takeOnce = (s.noteKind .localBus).placeNew (fun i => .create i e.createFields.lease)
        (grantOfCreate e.createFields p e.tag) e.station := by
      rw [takeOnce_local hidle he hk, takeLocal_create hop, takeCreate_placed (s := s.noteKind .localBus) hp hchecks]
    have hfrom := reservedFrom_placeNew (fun i => .create i e.createFields.lease) (grantOfCreate e.createFields p e.tag)
      e.station (s.noteKind .localBus)
    rw [exec_placementTake hr, htake]
    refine ⟨_, _, rfl, engine_placeNew_search _ _ _ _, rfl, rfl, rfl, hfrom.self, hfrom.other, ?_, fun a ha => ?_, ?_, rfl⟩
    · rw [hfrom.station, if_pos rfl]
      rfl
    · rw [hfrom.station, if_neg ha]
      rfl
    · exact SearchesAlike.outcome_newContext (s := s) (t := s.noteKind .localBus) ⟨rfl, rfl, fun _ _ => rfl⟩ rfl _ _ _
  · obtain ⟨rfl, rfl⟩ : s.freeQueue.headD 0 = i ∧ s.freeQueue.tail = free := by rw [hf]; exact ⟨rfl, rfl⟩
    have hchecks := askChecks_pass (s := s) (n := askCount q.fields) (p := some p) hm hs hc
      ⟨Nat.le_add_left 1 _, q.fields.countLessOne.isLt⟩ rfl hh hquota (by rw [hf]; rfl)
    generalize hu : State.setAsk q.station (.inFlight q.fields.seq) { s.noteKind .uplink with askQueue := rest } = u
    have htake : s.takeOnce = u.placeNew (fun i => .ask i q.fields.seq q.fields.leaseCode) (grantOfAsk q.fields p)
        q.station := by
      rw [takeOnce_uplink hidle hq hk, takeAsk_placed (s := { s.noteKind .uplink with askQueue := rest }) (by rw [hp]; exact hchecks),
        hp, hu]
      rfl
    have hfrom := reservedFrom_placeNew (fun i => .ask i q.fields.seq q.fields.leaseCode) (grantOfAsk q.fields p) q.station u
    have hcontext := engine_placeNew_search (fun i => .ask i q.fields.seq q.fields.leaseCode) (grantOfAsk q.fields p)
      q.station u
    rw [exec_placementTake hr, htake]
    subst hu
    refine ⟨_, _, rfl, hcontext, rfl, rfl, rfl, ?_, hfrom.self, hfrom.other, ?_, fun a ha => ?_, ?_, fun a ha => ?_, rfl⟩
    · exact SearchesAlike.outcome_newContext (s := s)
        (t := State.setAsk q.station (.inFlight q.fields.seq) { s.noteKind .uplink with askQueue := rest })
        ⟨rfl, rfl, fun _ _ => rfl⟩ rfl _ _ _
    · rw [hfrom.station, if_pos rfl]
      rfl
    · rw [hfrom.station, if_neg ha]
      rfl
    · exact s.ask_updAsk_same q.station (fun k => { k with status := .inFlight q.fields.seq })
    · exact (s.ask_updAsk q.station a (fun k => { k with status := .inFlight q.fields.seq })).trans (if_neg ha)

/-- Settles O34. -/
theorem resizeTakes : Obligations.ResizeTakes := by
  rintro s e g i n hr hidle he hk hop rfl hg rfl
  have htake : s.takeOnce = (s.noteKind .localBus).takeResize e := by
    rw [takeOnce_local hidle he hk, takeLocal_resize hop]
  refine ⟨fun st hq hfail => ?_, fun a hp hd ha hm hs h1 h64 hquota => ?_⟩
  · obtain ⟨r, hrefuses, heq⟩ := handBack_refused (s := s) e st hq
    rw [opCode_of_op.2 hop] at hrefuses
    refine ⟨_, r, (exec_placementTake hr).trans (congrArg _ ?_), hrefuses, heq⟩
    rw [htake, takeResize_refused (s := s.noteKind .localBus) (resizeChecks_fail (s := s) hg hfail)]
  · have hchecks := resizeChecks_pass (s := s) (g := g) hg hp hd ha hm hs ⟨h1, h64⟩ hquota
    subst hg
    have hsearch := outcome_resizeContext .localBus e.newCount.toNat ha
    refine ⟨_, (s.noteKind .localBus).resizeContext e.handle e.newCount.toNat,
      (exec_placementTake hr).trans (congrArg _ ?_), rfl, rfl, ?_, rfl, hsearch, fun hn => ?_, fun hn heven => ?_⟩
    · rw [htake, takeResize_begins (s := s.noteKind .localBus) hchecks]
      rfl
    · show (s.grant e.handle.index.toNat).owner.getD 0 = a
      rw [ha]
      rfl
    · rw [hsearch, hn]
      exact search_of_found (resizeSearch_same _ _ _ _)
    · rw [hsearch]
      exact search_of_found (resizeSearch_smaller _ _ heven hn)

end Sys2Proof.Proofs
end

section
/-! The search at a take (O36): availability, the order of the candidates, the preemptive pass, and what a resize searches
for (R64, R68 to R74). -/

namespace Sys2Proof.Machine

variable {s : State}

/-! ## Availability and the candidates' order (R64, R73) -/

theorem retirable_iff {x : GrantState} : x.retirable = true ↔ x = .pending ∨ x = .live ∨ x = .shifting := by
  cases x <;> simp [GrantState.retirable]

theorem available_iff {own n : Nat} {added : List Nat} : s.available own added n = true ↔
    (s.planAt n = none ∧ s.taintAt n = 0) ∨ s.planAt n = some own ∨ ∃ i ∈ added, s.planAt n = some i ∧ s.taintAt n = 0 := by
  unfold State.available
  cases hp : s.planAt n with
  | none => simp
  | some i => simp

/-- Candidate `i` comes before `j` (R73): class ascending, then commit sequence descending, then index ascending. -/
def State.precedes (s : State) (i j : Nat) : Prop :=
  (s.grant i).cls < (s.grant j).cls ∨ ((s.grant i).cls = (s.grant j).cls
    ∧ ((s.grant j).commitSeq < (s.grant i).commitSeq ∨ ((s.grant i).commitSeq = (s.grant j).commitSeq ∧ i < j)))

theorem comesBefore_iff {i j : Nat} : s.comesBefore i j = true ↔ s.precedes i j ∨ i = j := by
  simp only [State.comesBefore, State.precedes, Bool.or_eq_true, Bool.and_eq_true, decide_eq_true_iff, beq_iff_eq]
  constructor
  · rintro (h | ⟨h, h' | ⟨h', hij⟩⟩)
    · exact .inl (.inl h)
    · exact .inl (.inr ⟨h, .inl h'⟩)
    · rcases Nat.lt_or_eq_of_le hij with hij | hij
      · exact .inl (.inr ⟨h, .inr ⟨h', hij⟩⟩)
      · exact .inr hij
  · rintro ((h | ⟨h, h' | ⟨h', hij⟩⟩) | rfl)
    · exact .inl h
    · exact .inr ⟨h, .inl h'⟩
    · exact .inr ⟨h, .inr ⟨h', hij.le⟩⟩
    · exact .inr ⟨rfl, .inr ⟨rfl, Nat.le_refl _⟩⟩

theorem comesBefore_total (s : State) (i j : Nat) : s.comesBefore i j = true ∨ s.comesBefore j i = true := by
  rw [comesBefore_iff, comesBefore_iff]
  unfold State.precedes
  bv_omega

theorem comesBefore_trans {i j k : Nat} (hij : s.comesBefore i j = true) (hjk : s.comesBefore j k = true) :
    s.comesBefore i k = true := by
  rw [comesBefore_iff] at hij hjk ⊢
  rcases hij with hij | rfl
  · rcases hjk with hjk | rfl
    · refine .inl ?_
      unfold State.precedes at *
      bv_omega
    · exact .inl hij
  · exact hjk

/-- The candidates stand in the order of R73, each before every later one. -/
theorem pairwise_candidates (s : State) (own a : Nat) (c : BitVec 2) : (s.candidates own a c).Pairwise s.precedes := by
  have htotal : Std.Total (fun x y => s.comesBefore x y = true) := ⟨comesBefore_total s⟩
  have htrans : IsTrans Nat (fun x y => s.comesBefore x y = true) := ⟨fun _ _ _ => comesBefore_trans⟩
  have hnodup : (s.candidates own a c).Nodup := by
    rw [candidates_eq_insertionSort]
    exact (List.perm_insertionSort _ _).nodup_iff.2 (List.nodup_range.filter _)
  have hsorted : (s.candidates own a c).Pairwise (fun x y => s.comesBefore x y = true) := by
    rw [candidates_eq_insertionSort]
    exact List.pairwise_insertionSort _ _
  exact (hsorted.and hnodup).imp (fun h => (comesBefore_iff.1 h.1).resolve_right h.2)

/-! ## The preemptive pass (R73, R74) -/

theorem findSome?_range_eq_some {β : Type} {f : Nat → Option β} {m k : Nat} {b : β} (hk : k < m)
    (hbefore : ∀ j, j < k → f j = none) (hf : f k = some b) : (List.range m).findSome? f = some b := by
  induction m with
  | zero => exact absurd hk (Nat.not_lt_zero k)
  | succ m ih =>
    rw [List.range_succ, List.findSome?_append]
    rcases Nat.lt_succ_iff_lt_or_eq.1 hk with hk | rfl
    · rw [ih hk]
      rfl
    · rw [List.findSome?_eq_none_iff.2 (fun j hj => hbefore j (List.mem_range.1 hj))]
      simp [hf]

/-- The outcome where the first `k + 1` candidates are added, if the search then succeeds. -/
def State.attempt (own : Nat) (order : List Nat) (find : (Nat → Bool) → Option (List Nat)) (s : State) (k : Nat) :
    Option Found :=
  (find (s.available own (order.take (k + 1)))).map (fun t => Found.chosen t (s.victims (order.take (k + 1)) t))

theorem preemptivePass_eq (own : Nat) (order : List Nat) (find : (Nat → Bool) → Option (List Nat)) (s : State) :
    s.preemptivePass own order find = ((List.range (order.take Config.candidateLimit).length).findSome?
      (s.attempt own (order.take Config.candidateLimit) find)).getD .noRoom := by
  unfold State.preemptivePass
  dsimp only
  rw [List.findSome?_map]
  rfl

theorem attempt_take {own k : Nat} {order : List Nat} {find : (Nat → Bool) → Option (List Nat)}
    (hk : k < Config.candidateLimit) : s.attempt own (order.take Config.candidateLimit) find k = s.attempt own order find k := by
  unfold State.attempt
  rw [List.take_take, Nat.min_eq_left hk]

section

variable {own a : Nat} {c : BitVec 2} {order : List Nat} {find : (Nat → Bool) → Option (List Nat)}

/-- The pass stops at the first number of candidates with which the search succeeds. -/
theorem preemptivePass_chosen {k : Nat} {t : List Nat} (hk1 : 1 ≤ k) (hk4 : k ≤ 4) (hk : k ≤ order.length)
    (hbefore : ∀ j, 1 ≤ j → j < k → find (s.available own (order.take j)) = none)
    (hfind : find (s.available own (order.take k)) = some t) :
    s.preemptivePass own order find = .chosen t (s.victims (order.take k) t) := by
  obtain ⟨k, rfl⟩ : ∃ m, k = m + 1 := ⟨k - 1, by omega⟩
  rw [preemptivePass_eq, findSome?_range_eq_some (k := k), Option.getD_some]
  · rw [List.length_take]
    exact lt_min hk4 hk
  · intro j hj
    rw [attempt_take (by exact hj.trans hk4), State.attempt, hbefore (j + 1) (Nat.le_add_left 1 j) (by omega)]
    rfl
  · rw [attempt_take (by exact hk4), State.attempt, hfind]
    rfl

theorem preemptivePass_noRoom
    (hall : ∀ j, 1 ≤ j → j ≤ 4 → j ≤ order.length → find (s.available own (order.take j)) = none) :
    s.preemptivePass own order find = .noRoom := by
  rw [preemptivePass_eq, List.findSome?_eq_none_iff.2, Option.getD_none]
  intro j hj
  rw [List.mem_range, List.length_take, lt_min_iff] at hj
  rw [attempt_take hj.1, State.attempt, hall (j + 1) (Nat.le_add_left 1 j) hj.1 hj.2]
  rfl

theorem search_of_not_found (h : find (s.available own []) = none) : s.search own a c find =
    if s.cfg.preempt = true ∧ c ≠ 0 then s.preemptivePass own (s.candidates own a c) find else .noRoom := by
  simp only [State.search, h, Bool.and_eq_true, bne_iff_ne]

end

/-! ## Growing an ANY grant (R69) -/

section

variable {c : LengthCode} {avail : Nat → Bool} {own t : List Nat} {n : Nat}

/-- The slots that a growing ANY grant gains: the lowest available ones it does not own. -/
def LengthCode.gained (c : LengthCode) (avail : Nat → Bool) (own : List Nat) (k : Nat) : List Nat :=
  (c.payload.filter (fun x => avail x && !own.contains x)).take k

theorem resizeAny_grows_iff (h : own.length < n) : resizeSearch .any c avail own n = some t ↔
    (c.gained avail own (n - own.length)).length = n - own.length
      ∧ c.payload.filter (fun x => own.contains x || (c.gained avail own (n - own.length)).contains x) = t := by
  unfold resizeSearch
  rw [if_neg h.ne']
  dsimp only
  unfold resizeAny
  rw [if_neg (Nat.not_le.2 h)]
  rw [Option.ite_none_right_eq_some, Option.some.injEq]
  rfl

theorem resizeAny_fails_iff (h : own.length < n) : resizeSearch .any c avail own n = none ↔
    ((List.range c.slots).filter (fun x => decide (64 ≤ x) && avail x && !own.contains x)).length < n - own.length := by
  have hnone : resizeSearch .any c avail own n = none ↔
      (c.gained avail own (n - own.length)).length ≠ n - own.length := by
    rw [Option.eq_none_iff_forall_ne_some]
    refine ⟨fun hn he => hn _ ((resizeAny_grows_iff h).2 ⟨he, rfl⟩), fun hn t ht => hn ((resizeAny_grows_iff h).1 ht).1⟩
  rw [hnone]
  unfold LengthCode.gained
  rw [List.length_take, LengthCode.filter_payload]
  simp only [← Bool.and_assoc]
  omega

theorem slotsFor_resizeSearch_any (ho : SlotsFor c own.length own) (h : own.length < n)
    (ht : resizeSearch .any c avail own n = some t) : SlotsFor c n t := by
  unfold resizeSearch at ht
  rw [if_neg h.ne'] at ht
  exact slotsFor_resizeAny ho ht

theorem gained_spec {k x : Nat} (hx : x ∈ c.gained avail own k) :
    64 ≤ x ∧ x < c.slots ∧ avail x = true ∧ x ∉ own := by
  obtain ⟨hlow, hhigh, hp⟩ := LengthCode.mem_lowest hx
  simp only [Bool.and_eq_true, Bool.not_eq_true', List.contains_eq_mem, decide_eq_false_iff_not] at hp
  exact ⟨hlow, hhigh, hp⟩

/-- A growing ANY grant keeps its slots and gains the lowest available others. -/
theorem resizeAny_grown (h : own.length < n) (hsorted : own.Pairwise (· < ·)) (hown : ∀ x ∈ own, 64 ≤ x ∧ x < c.slots)
    (ht : resizeSearch .any c avail own n = some t) : t.length = n ∧ t.Pairwise (· < ·) ∧ (∀ x ∈ own, x ∈ t)
      ∧ (∀ x ∈ t, x ∉ own → 64 ≤ x ∧ x < c.slots ∧ avail x = true)
      ∧ ∀ y, 64 ≤ y → y < c.slots → avail y = true → y ∉ t → ∀ x ∈ t, x ∉ own → x < y := by
  have hpayload : ∀ x ∈ own, x ∈ c.payload := fun x hx => LengthCode.mem_payload.2 (hown x hx)
  obtain ⟨hlen, hasc, -⟩ := slotsFor_resizeSearch_any ⟨rfl, hsorted, hpayload⟩ h ht
  obtain ⟨-, rfl⟩ := (resizeAny_grows_iff h).1 ht
  have hmem : ∀ x, x ∈ c.payload.filter (fun x => own.contains x || (c.gained avail own (n - own.length)).contains x) ↔
      (64 ≤ x ∧ x < c.slots) ∧ (x ∈ own ∨ x ∈ c.gained avail own (n - own.length)) := fun x => by
    simp only [List.mem_filter, LengthCode.mem_payload, Bool.or_eq_true, List.contains_iff_mem]
  have hgain : ∀ x ∈ c.payload.filter (fun x => own.contains x || (c.gained avail own (n - own.length)).contains x),
      x ∉ own → x ∈ c.gained avail own (n - own.length) := fun x hx hno => ((hmem x).1 hx).2.resolve_left hno
  refine ⟨hlen, hasc, fun x hx => (hmem x).2 ⟨hown x hx, .inl hx⟩, fun x hx hno => ?_, fun y hlow hhigh hy hno x hx hxo => ?_⟩
  · obtain ⟨hlow, hhigh, ha, -⟩ := gained_spec (hgain x hx hno)
    exact ⟨hlow, hhigh, ha⟩
  · have hyo : y ∉ own := fun h => hno ((hmem y).2 ⟨⟨hlow, hhigh⟩, .inl h⟩)
    refine LengthCode.lowest_lt hlow hhigh ?_ (fun h => hno ((hmem y).2 ⟨⟨hlow, hhigh⟩, .inr h⟩)) (hgain x hx hxo)
    simp [hy, hyo]

/-! ## Growing a BLOCK grant (R70) -/

theorem resizeBlock_grows {b k : Nat} (hk : 1 ≤ k) (hn : k < n) :
    resizeSearch .block c avail (List.range' b k) n =
      if b + n ≤ c.slots ∧ (List.range' (b + k) (n - k)).all avail = true then some (List.range' b n)
      else if 64 + (n - k) ≤ b ∧ (List.range' (b - (n - k)) (n - k)).all avail = true then
        some (List.range' (b - (n - k)) n)
      else blockSearch c avail n := by
  obtain ⟨k, rfl⟩ : ∃ m, k = m + 1 := ⟨k - 1, by omega⟩
  unfold resizeSearch
  rw [List.length_range', if_neg hn.ne']
  dsimp only
  unfold resizeBlock
  rw [List.length_range', if_neg (Nat.not_le.2 hn)]
  rfl

end

end Sys2Proof.Machine

namespace Sys2Proof.Proofs

open Sys2Proof.Machine

/-- Settles O36. -/
theorem searchesAndPreemption : Obligations.SearchesAndPreemption := by
  refine ⟨fun s own a n cls added => ⟨available_iff, fun i => ?_, pairwise_candidates s own a cls⟩,
    fun s own a cls find order horder => ⟨fun t => search_of_found, fun hnone => ?_⟩,
    fun c avail own n => ⟨?_, fun p hp hn => resizeSearch_smaller c avail hp hn, fun hn => if_neg hn,
      fun hn hsorted hown => ⟨fun t => resizeAny_grown hn hsorted hown, resizeAny_fails_iff hn⟩, ?_⟩⟩
  · rw [mem_candidates, isCandidate_iff, retirable_iff]
    rfl
  · subst horder
    rw [search_of_not_found hnone]
    refine ⟨fun hno => if_neg ?_, fun hp hc => ?_⟩
    · rintro ⟨hp, hc⟩
      rcases hno with h | h
      · exact Bool.false_ne_true (h.symm.trans hp)
      · exact hc h
    · rw [if_pos ⟨hp, hc⟩]
      exact ⟨fun k t => preemptivePass_chosen, preemptivePass_noRoom⟩
  · rintro p rfl
    exact resizeSearch_same p c avail own
  · rintro b k rfl hk hn hb up down hup hdown
    have hup' : up ↔ b + n ≤ c.slots ∧ (List.range' (b + k) (n - k)).all avail = true := by
      rw [hup, run_available_iff, show b + k + (n - k) = b + n by omega]
    have hdown' : down ↔ 64 + (n - k) ≤ b ∧ (List.range' (b - (n - k)) (n - k)).all avail = true := by
      rw [hdown, run_available_iff]
      exact and_congr_right (fun h => by rw [Nat.sub_add_cancel (by omega)])
    rw [resizeBlock_grows hk hn]
    refine ⟨fun hu => if_pos (hup'.1 hu), fun hu hd => ?_, fun hu hd => ?_⟩
    · rw [if_neg (mt hup'.2 hu), if_pos (hdown'.1 hd)]
    · rw [if_neg (mt hup'.2 hu), if_neg (mt hdown'.2 hd)]

end Sys2Proof.Proofs
end

section
/-! The register window: the writes that are judged (O51) and the others (O52), and what a read returns (O53)
(R16, R54, R101, R148, R158, R159, R178 to R183). -/

namespace Sys2Proof.Machine

variable {s : State}

/-! ## The judged writes (R182) -/

/-- A write whose acceptance says `p` is held where `p` holds, and refused elsewhere. -/
theorem configure_of_iff {accepted : Bool} {p : Prop} [Decidable p] (f : State → State) (h : accepted = true ↔ p) :
    s.configure accepted f = if p then f s else { s with ints := s.ints.raise .configRefused } := by
  unfold State.configure
  exact if_congr h rfl rfl

theorem noEpoch_iff {m : SlotMap} : m.noEpoch = true ↔ m.openEpoch = none ∧ m.sealedEpoch = none := by
  simp [SlotMap.noEpoch]

theorem leadValid_iff {v : BitVec 8} : leadValid v = true ↔ v.toNat % 2 = 0 ∧ 4 ≤ v.toNat ∧ v.toNat ≤ 254 := by
  have := v.isLt
  simp only [leadValid, Bool.and_eq_true, beq_iff_eq, decide_eq_true_iff]
  omega

theorem limitsValid_iff {q l : BitVec 8} : limitsValid q l = true ↔ 1 ≤ q.toNat ∧ q.toNat < l.toNat := by
  simp [limitsValid]

theorem allFree_iff : s.allFree = true ↔ s.freeQueue.length = 240 ∧ ∀ i, i < 240 → (s.grant i).state = .free := by
  simp only [State.allFree, Config.grantCount, Bool.and_eq_true, beq_iff_eq, List.all_eq_true, List.mem_range]

theorem lengthCode_ofBits (b : BitVec 2) :
    LengthCode.ofBits b = if b = 0 then .l256 else if b = 1 then .l512 else .l1024 := rfl

/-- R16: the conditions under which a FRAME_LENGTH write is accepted. -/
theorem acceptsLength_iff : (s.timer.timing == .stopped && s.allFree && s.map.noEpoch) = true ↔
    s.timer.timing = .stopped ∧ (∀ i, i < 240 → (s.grant i).state = .free) ∧ s.freeQueue.length = 240
      ∧ s.map.openEpoch = none ∧ s.map.sealedEpoch = none := by
  simp only [Bool.and_eq_true, beq_iff_eq, allFree_iff, noEpoch_iff, and_assoc]
  tauto

theorem writeFrameLength_accepted (w : Word) (h : (s.timer.timing == .stopped && s.allFree && s.map.noEpoch) = true) :
    s.writeFrameLength w =
      { s with timer := { s.timer with code := .ofBits (w.extractLsb' 0 2) }, map := { s.map with taint := .empty } } :=
  if_pos h

theorem writeFrameLength_refused (w : Word) (h : ¬ (s.timer.timing == .stopped && s.allFree && s.map.noEpoch) = true) :
    s.writeFrameLength w = { s with ints := s.ints.raise .configRefused } :=
  if_neg h

/-- A write that is no work for the engine acts as it does where no take is due, also right before the take (log 5). -/
theorem exec_of_readyOrBeforeTake {c : Instr} {f : State → State} (hc : operationOf c = some f) (h : s.readyOrBeforeTake)
    (hb : s.broughtWork (f s) = false) : exec c s = .next (f s) := by
  obtain ⟨hr, hd | hp⟩ := h
  · exact exec_of_ready hc ⟨hr, hd⟩
  · exact (exec_operation hc s).trans (event_next_of_precedes hr hp hb)

theorem broughtWork_same {t : State} (hp : t.port = s.port) (hq : t.askQueue = s.askQueue) :
    s.broughtWork t = false := by
  simp [State.broughtWork, hp, hq]

theorem exec_frameLengthWrite (h : s.readyOrBeforeTake) (w : Word) :
    exec (.frameLengthWrite w) s = .next (s.writeFrameLength w) := by
  refine exec_of_readyOrBeforeTake rfl h (broughtWork_same ?_ ?_)
  all_goals
    unfold State.writeFrameLength State.configure
    split <;> rfl

/-! ## The lease codes (R84) -/

theorem busWrite_leaseCode {k : Nat} (h1 : 1 ≤ k) (h15 : k ≤ 15) (w : Word) (s : State) :
    s.busWrite (BitVec.ofNat 6 (0x10 + k)) w = s.writeLeaseCode k w := by
  interval_cases k <;> rfl

theorem registerRead_leaseCode {k : Nat} (h1 : 1 ≤ k) (h15 : k ≤ 15) (s : State) :
    s.registerRead (BitVec.ofNat 6 (0x10 + k)) = (s.cfg.leaseCodes.toList.getD (k - 1) 0).setWidth 32 := by
  interval_cases k <;> rfl

theorem leaseCodes_writeLeaseCode (k : Nat) (w : Word) (s : State) : (s.writeLeaseCode k w).cfg.leaseCodes.toList =
    s.cfg.leaseCodes.toList.set (k - 1) (w.setWidth 16) := by
  show (s.cfg.leaseCodes.setIfInBounds (k - 1) (w.setWidth 16)).toList = _
  exact Vector.toList_setIfInBounds ..

theorem registerRead_writeLeaseCode {j k : Nat} (h1 : 1 ≤ k) (h15 : k ≤ 15) (hj1 : 1 ≤ j) (hj15 : j ≤ 15) (w : Word)
    (s : State) : (s.writeLeaseCode k w).registerRead (BitVec.ofNat 6 (0x10 + j)) =
      if j = k then (w.extractLsb' 0 16).setWidth 32 else s.registerRead (BitVec.ofNat 6 (0x10 + j)) := by
  rw [registerRead_leaseCode hj1 hj15, registerRead_leaseCode hj1 hj15, leaseCodes_writeLeaseCode]
  have hlen : s.cfg.leaseCodes.toList.length = 15 := s.cfg.leaseCodes.length_toList
  split
  · rename_i hjk
    subst hjk
    rw [List.getD_eq_getElem?_getD, List.getElem?_set_self (by omega), Option.getD_some]
    rw [show w.setWidth 16 = w.extractLsb' 0 16 from BitVec.setWidth_eq_extractLsb' (by decide)]
  · rw [List.getD_eq_getElem?_getD, List.getElem?_set_ne (by omega), List.getD_eq_getElem?_getD]

/-! ## The writes that are ignored (R180) -/

theorem busWrite_ignored {addr : BitVec 6} (w : Word) (h : addr = 0x00 ∨ addr = 0x02 ∨ addr = 0x03 ∨ addr = 0x04
    ∨ addr = 0x25 ∨ addr = 0x26 ∨ addr = 0x27 ∨ addr = 0x28 ∨ addr = 0x29 ∨ 0x2B ≤ addr.toNat) : s.busWrite addr w = s := by
  have hn : addr.toNat = 0 ∨ addr.toNat = 2 ∨ addr.toNat = 3 ∨ addr.toNat = 4 
      ∨ (0x25 ≤ addr.toNat ∧ addr.toNat ≤ 0x29) ∨ 0x2B ≤ addr.toNat := by
    bv_omega
  have hlt : addr.toNat < 64 := addr.isLt
  have haddr : addr = BitVec.ofNat 6 addr.toNat := by rw [BitVec.ofNat_toNat, BitVec.setWidth_eq]
  rw [haddr]
  generalize addr.toNat = n at hn hlt
  rcases hn with rfl | rfl | rfl | rfl | ⟨hlow, hhigh⟩ | hlow
  · rfl
  · rfl
  · rfl
  · rfl
  · interval_cases n <;> rfl
  · interval_cases n <;> rfl

/-! ## Reads (R179 to R181) -/

theorem registerRead_unreadable {addr : BitVec 6} (s : State) (h : addr = 0x24 ∨ addr = 0x2A ∨ 0x2C ≤ addr.toNat) :
    s.registerRead addr = 0 := by
  have hn : addr.toNat = 0x24 ∨ addr.toNat = 0x2A ∨ 0x2C ≤ addr.toNat := by bv_omega
  have hlt : addr.toNat < 64 := addr.isLt
  have haddr : addr = BitVec.ofNat 6 addr.toNat := by rw [BitVec.ofNat_toNat, BitVec.setWidth_eq]
  rw [haddr]
  generalize addr.toNat = n at hn hlt
  rcases hn with rfl | rfl | hlow
  · rfl
  · rfl
  · interval_cases n <;> rfl

theorem place_isSome_iff {t : Timer} : t.place.isSome = true ↔ t.timing ≠ .stopped := by
  unfold Timer.place
  cases t.timing <;> simp

/-- The fields of STATUS word 0, but the pending request. -/
theorem status0_fields (s : State) :
    (s.status0.getLsbD 0 = true ↔ s.timer.timing ≠ .stopped) ∧ s.status0.extractLsb' 1 2 = s.timer.request.bits
      ∧ s.status0.extractLsb' 3 2 = s.timer.code.bits ∧ s.status0.getLsbD 5 = s.map.openEpoch.isSome
      ∧ s.status0.getLsbD 6 = s.map.sealedEpoch.isSome ∧ s.status0.getLsbD 7 = s.port.inProgress.isSome
      ∧ s.status0.extractLsb' 8 8 = s.map.openEpoch.elim 0 Epoch.number
      ∧ s.status0.extractLsb' 16 8 = s.map.sealedEpoch.elim 0 Epoch.number ∧ s.status0.extractLsb' 24 8 = 0 := by
  simp [State.status0, place_isSome_iff, -BitVec.getLsbD_eq_getElem]

theorem toNat_ofNat_of_le {w m n : Nat} (hn : n ≤ m) (hm : m < 2 ^ w) : (BitVec.ofNat w n).toNat = n := by
  rw [BitVec.toNat_ofNat, Nat.mod_eq_of_lt (hn.trans_lt hm)]

/-- The fields of STATUS word 1 and RQFREE, the queues within their limits. -/
theorem status1_fields (h : s.port.requests.length ≤ 16) (h' : s.port.results.length ≤ 32) (hq : s.askQueue.length ≤ 47) :
    (s.status1.extractLsb' 0 5).toNat = s.port.requests.length
      ∧ (s.status1.extractLsb' 5 6).toNat = s.port.results.length
      ∧ (s.status1.extractLsb' 11 6).toNat = s.askQueue.length ∧ s.status1.getLsbD 17 = s.engine.context.isSome
      ∧ (s.registerRead 0x25).toNat = 16 - s.port.requests.length := by
  have hfields : s.status1.extractLsb' 0 5 = BitVec.ofNat 5 s.port.requests.length
      ∧ s.status1.extractLsb' 5 6 = BitVec.ofNat 6 s.port.results.length
      ∧ s.status1.extractLsb' 11 6 = BitVec.ofNat 6 s.askQueue.length ∧ s.status1.getLsbD 17 = s.engine.context.isSome := by
    simp [State.status1, -BitVec.getLsbD_eq_getElem]
  obtain ⟨hreq, hres, hask, hbusy⟩ := hfields
  rw [hreq, hres, hask]
  exact ⟨toNat_ofNat_of_le h (by decide), toNat_ofNat_of_le h' (by decide), toNat_ofNat_of_le hq (by decide), hbusy,
    toNat_ofNat_of_le (Nat.sub_le _ _) (by decide)⟩

/-- The fields of PRESENCE_LIMITS, NOTICE_TIMING and POLICY. -/
theorem paired_fields (s : State) :
    ((s.registerRead 0x07).extractLsb' 0 8 = s.cfg.quietAfter ∧ (s.registerRead 0x07).extractLsb' 8 8 = s.cfg.lostAfter
      ∧ (s.registerRead 0x07).extractLsb' 16 16 = 0 ∧ (s.registerRead 0x08).extractLsb' 4 4 = 0
      ∧ (s.registerRead 0x08).extractLsb' 12 20 = 0 ∧ (s.registerRead 0x08).extractLsb' 0 4 = s.cfg.retryInterval
      ∧ (s.registerRead 0x08).extractLsb' 8 4 = s.cfg.sendLimit)
    ∧ (s.registerRead 0x0D).getLsbD 0 = s.cfg.preempt ∧ (s.registerRead 0x0D).getLsbD 1 = s.cfg.suspendOnFault
      ∧ (s.registerRead 0x0D).extractLsb' 2 30 = 0 := by
  simp [State.registerRead, -BitVec.getLsbD_eq_getElem]

end Sys2Proof.Machine

namespace Sys2Proof.Proofs

open Sys2Proof.Machine

/-- Settles O51. -/
theorem configurationWritesAreJudged : Obligations.ConfigurationWritesAreJudged := by
  refine ⟨fun s w h => ⟨?_, ?_, ?_, ?_⟩, fun s w h => ⟨fun hok => ?_, fun hno => ?_⟩⟩
  · rw [exec_of_ready rfl h]
    refine congrArg _ (configure_of_iff _ ?_)
    rw [Bool.and_eq_true, noEpoch_iff, leadValid_iff, and_assoc]
    rfl
  · rw [exec_of_ready rfl h]
    exact congrArg _ (configure_of_iff _ limitsValid_iff)
  · rw [exec_of_ready rfl h]
    refine congrArg _ (configure_of_iff _ ?_)
    rw [Bool.and_eq_true, bne_iff_ne, bne_iff_ne]
  · rw [exec_of_ready rfl h]
    exact congrArg _ (configure_of_iff _ bne_iff_ne)
  · refine ⟨_, exec_frameLengthWrite h w, ?_⟩
    rw [writeFrameLength_accepted w (acceptsLength_iff.2 hok)]
    exact ⟨fun n => Table.get_empty 0 n, rfl, rfl⟩
  · rw [exec_frameLengthWrite h, writeFrameLength_refused w (mt acceptsLength_iff.1 hno)]

/-- Settles O52. -/
theorem plainRegisterWrites : Obligations.PlainRegisterWrites := by
  refine ⟨fun s w h => ?_, fun s w => ⟨rfl, rfl, rfl, rfl, rfl, rfl, rfl, rfl, rfl, rfl⟩⟩
  have hwrite : ∀ addr, exec (.registerWrite addr w) s = .next (s.busWrite addr w) := fun _ => exec_of_ready rfl h
  refine ⟨hwrite 0x09, hwrite 0x0A, hwrite 0x0C, hwrite 0x0D, fun k h1 h15 => ?_, hwrite 0x20, hwrite 0x21, hwrite 0x22,
    hwrite 0x23, fun addr ha => ?_, exec_of_ready (c := .intrusionCountWrite w) rfl h⟩
  · rw [hwrite, busWrite_leaseCode h1 h15]
    refine ⟨_, rfl, ?_, fun j hj1 hj15 hjk => ?_, rfl⟩
    · rw [registerRead_writeLeaseCode h1 h15 h1 h15, if_pos rfl]
    · rw [registerRead_writeLeaseCode h1 h15 hj1 hj15, if_neg hjk]
  · rw [hwrite, busWrite_ignored w ha]

/-- Settles O53. -/
theorem registerReads : Obligations.RegisterReads := by
  refine ⟨fun s addr => ⟨fun h => ?_, fun h => ?_, fun h => ?_⟩, fun s => ?_⟩
  · rw [State.busRead, if_pos h]
  · rw [State.busRead, if_neg (Bool.eq_false_iff.1 h)]
  · rw [State.busRead, if_neg (Bool.eq_false_iff.1 h.1), catchUp_of_not_due h.2]
  · obtain ⟨hrun, hrequest, hcode, hopen, hsealed, hport, hopenNo, hsealedNo, hzero⟩ := status0_fields s
    obtain ⟨⟨hquiet, hlost, hlimits0, htiming0, htiming0', hretry, hsend⟩, hpreempt, hsuspend, hpolicy0⟩ := paired_fields s
    refine ⟨rfl, fun addr ha => registerRead_unreadable s ha, hrun, fun h => hrequest.trans (by rw [h]; rfl),
      fun h => hrequest.trans (by rw [h]; rfl), fun h => hrequest.trans (by rw [h]; rfl), hcode, rfl, hopen, hsealed, hport,
      hopenNo, hsealedNo, hzero, fun h h' hq => status1_fields h h' hq, ?_, registerRead_control s, rfl, rfl, hquiet, hlost,
      hlimits0, htiming0, htiming0', hretry, hsend, rfl, rfl, rfl, rfl, hpreempt, hsuspend, hpolicy0, fun k => ?_,
      ⟨rfl, rfl, rfl, rfl⟩, rfl, rfl, rfl⟩
    · show s.status1.extractLsb' 18 14 = 0
      simp [State.status1]
    · have hk := registerRead_leaseCode (k := k.val + 1) (Nat.le_add_left 1 _) k.isLt s
      rw [show 0x11 + k.val = 0x10 + (k.val + 1) by omega, hk]
      congr 1
      simp [List.getD_eq_getElem?_getD]

end Sys2Proof.Proofs
end

section
/-! The Request Port: serving, posting, popping, and what a request does at a free port (R161 to R166; O41, O43). -/

namespace Sys2Proof.Machine

variable {s : State} {e : Quad}

/-! ## Serving (R164) -/

theorem canTake_iff {p : Port} : p.canTake = true ↔ p.inProgress = none ∧ p.results.length < Config.resultLimit := by
  simp [Port.canTake]

theorem canTake_eq_false {p : Port} (h : p.inProgress.isSome = true ∨ Config.resultLimit ≤ p.results.length) :
    p.canTake = false := by
  rw [← Bool.not_eq_true, canTake_iff]
  rintro ⟨hi, hr⟩
  rcases h with h | h
  · rw [hi] at h
    nomatch h
  · omega

theorem serve_of_no_requests (fuel : Nat) (h : s.port.requests = []) : s.serve fuel = s := by
  cases fuel with
  | zero => rfl
  | succ n =>
    unfold State.serve
    rw [h]

theorem serve_of_blocked (fuel : Nat) (h : s.port.canTake = false) : s.serve fuel = s := by
  cases fuel with
  | zero => rfl
  | succ n =>
    unfold State.serve
    cases s.port.requests with
    | nil => rfl
    | cons e es =>
      dsimp only
      rw [h]
      rfl

/-- The port takes nothing where none waits, where it is IN_PROGRESS, and where there is no room for a result. -/
theorem servePort_of_idle (h : s.port.requests = [] ∨ s.port.inProgress.isSome = true
    ∨ Config.resultLimit ≤ s.port.results.length) : s.servePort = s := by
  rcases h with h | h
  · exact serve_of_no_requests _ h
  · exact serve_of_blocked _ (canTake_eq_false h)

/-! ## Taking an entry (R114, R165) -/

/-- A take's suspension clearing touches the Roster only. -/
theorem clearSuspension_eq (e : Quad) (s : State) :
    s.clearSuspension e = { s with stations := (s.clearSuspension e).stations } := by
  unfold State.clearSuspension
  split <;> rfl

theorem port_clearSuspension (e : Quad) (s : State) : (s.clearSuspension e).port = s.port := by rw [clearSuspension_eq]

theorem clearSuspension_updPort (f : Port → Port) (e : Quad) (s : State) :
    (s.updPort f).clearSuspension e = (s.clearSuspension e).updPort f := by
  unfold State.clearSuspension
  split <;> rfl

theorem clearSuspension_of_not (h : e.resume = false ∨ e.station = 0 ∨ 48 ≤ e.station) : s.clearSuspension e = s := by
  unfold State.clearSuspension
  refine if_neg ?_
  rw [Bool.and_eq_true, isStation_iff]
  rintro ⟨hr, h1, h47⟩
  rcases h with h | h | h
  · exact Bool.false_ne_true (h.symm.trans hr)
  · omega
  · omega

theorem clearSuspension_of (hr : e.resume = true) (h1 : 1 ≤ e.station) (h47 : e.station ≤ 47) :
    s.clearSuspension e = s.updStation e.station (fun r => { r with suspended := false }) := by
  unfold State.clearSuspension
  rw [hr, isStation_iff.2 ⟨h1, h47⟩]
  rfl

/-- Another content for the staging words. -/
def Mask.staged (e : Quad) : Mask := { engine := id, staging := fun _ => e, requests := id }

/-- A request at a free port is dealt with as it is posted (R161, R164, R165). -/
theorem request_of_portFree (h : s.portFree) (e : Quad) :
    s.request e = ((s.clearSuspension e).perform e).mask (.staged e) := by
  obtain ⟨hi, hq, hr⟩ := h
  have hentry : ((s.mask (.staged e)).clearSuspension e).perform e = ((s.clearSuspension e).perform e).mask (.staged e) := by
    rw [mask_clearSuspension, mask_perform]
  rw [← hentry]
  unfold State.request State.post
  rw [if_pos (by show s.port.requests.length < _; rw [hq]; decide)]
  have hcan : s.port.canTake = true := canTake_iff.2 ⟨hi, hr⟩
  have hstate : (s.updPort (fun p => { p with staging := e })).updPort
      (fun p => { p with requests := p.requests ++ [p.staging] }) =
        { s with port := { s.port with staging := e, requests := [e] } } := by
    show ({ s with port := { s.port with staging := e, requests := s.port.requests ++ [e] } } : State) = _
    rw [hq]
    rfl
  rw [hstate]
  show (if s.port.canTake then _ else _) = _
  rw [if_pos hcan]
  show State.takeEntry e [] _ = _
  unfold State.takeEntry
  have hnone : ({ s with port := { s.port with staging := e, requests := [e] } } : State).updPort
      (fun p => { p with requests := [] }) = s.mask (.staged e) := by
    show ({ s with port := { s.port with staging := e, requests := [] } } : State) =
      { s with port := { s.port with staging := e, requests := s.port.requests } }
    rw [hq]
  rw [hnone]

theorem exec_request {c : Instr} (hc : operationOf c = some (State.request e)) (h : s.ready) (hp : s.portFree) :
    exec c s = .next (((s.clearSuspension e).perform e).mask (.staged e)) := by
  rw [exec_of_ready hc h, request_of_portFree hp]

/-- An op that changes nothing itself is answered. -/
theorem exec_answered {c : Instr} {q : Quad} (hc : operationOf c = some (State.request e)) (h : s.ready) (hp : s.portFree)
    (hq : (s.clearSuspension e).perform e = (s.clearSuspension e).postResult q) :
    exec c s = .next (s.answered e q) := by
  rw [exec_request hc h hp, hq]
  unfold State.answered
  rw [clearSuspension_eq]
  rfl

/-! ## What each op does at its take (R165 to R175) -/

section

variable (s : State)

theorem perform_create (h : e.op = .create) : s.perform e = s.handOn e := by rw [State.perform, h]

theorem perform_resize (h : e.op = .resize) : s.perform e = s.handOn e := by rw [State.perform, h]

theorem perform_release (h : e.op = .release) : s.perform e = State.answer e (s.performRelease e.handle) := by
  rw [State.perform, h]

theorem perform_renew (h : e.op = .renew) :
    s.perform e = State.answer e (s.performRenew e.handle (if e.leaseGiven then some e.lease else none)) := by
  rw [State.perform, h]

theorem perform_setStation (h : e.op = .setStation) :
    s.perform e = State.answer e (s.performSetStation e.station e.quota e.maxClass e.barred) := by rw [State.perform, h]

theorem perform_evict (h : e.op = .evict) : s.perform e = State.answer e (s.performEvict e.station) := by
  rw [State.perform, h]

theorem perform_retireAll (h : e.op = .retireAll) : s.perform e = State.answer e (s.performRetireAll e.station) := by
  rw [State.perform, h]

theorem perform_lookupGrant (h : e.op = .lookupGrant) :
    s.perform e = s.postResult (resultEntry e 0 (s.lookupGrant e.handle)) := by
  rw [State.perform, h]
  rfl

theorem perform_lookupSlot (h : e.op = .lookupSlot) :
    s.perform e = s.postResult (resultEntry e 0 (s.lookupSlot e.slot)) := by
  rw [State.perform, h]
  rfl

theorem perform_lookupStation (h : e.op = .lookupStation) :
    s.perform e = s.postResult (resultEntry e 0 (s.lookupStation e.station)) := by
  rw [State.perform, h]
  rfl

theorem perform_listSlots (h : e.op = .listSlots) :
    s.perform e = s.postResult (resultEntry e 0 (s.listSlots e.handle e.startSlot e.selectsPlan)) := by
  rw [State.perform, h]
  rfl

theorem perform_census (h : e.op = .census) :
    s.perform e = s.postResult (resultEntry e (BitVec.ofNat 8 s.recordsInUse) s.census) := by rw [State.perform, h]

theorem perform_unknown (h : e.op = .unknown) :
    s.perform e = s.postResult (resultEntry e 0 (.refused .badRequest)) := by
  rw [State.perform, h]
  rfl

end

/-- A CREATE or RESIZE waits for the engine. -/
theorem exec_handedOn {c : Instr} (hc : operationOf c = some (State.request e)) (h : s.ready) (hp : s.portFree)
    (ho : e.op = .create ∨ e.op = .resize) : exec c s = .next { s.clearSuspension e with
      port := { s.port with staging := e, inProgress := some e } } := by
  have hon : (s.clearSuspension e).perform e = (s.clearSuspension e).handOn e :=
    ho.elim (perform_create _) (perform_resize _)
  rw [exec_request hc h hp, hon, clearSuspension_eq]
  rfl

/-! ## Posting and popping (R161, R163) -/

theorem post_waits (hlen : s.port.requests.length < 16)
    (hb : s.port.inProgress.isSome = true ∨ Config.resultLimit ≤ s.port.results.length) :
    s.post = { s with port := { s.port with requests := s.port.requests ++ [s.port.staging] } } := by
  unfold State.post
  rw [if_pos (show s.port.requests.length < Config.requestLimit from hlen)]
  exact servePort_of_idle (s := s.updPort (fun p => { p with requests := p.requests ++ [p.staging] })) (.inr hb)

theorem post_overruns (hlen : 16 ≤ s.port.requests.length) : s.post = { s with ints := s.ints.raise .reqOverrun } := by
  unfold State.post
  exact if_neg (Nat.not_lt.2 hlen)

/-- A request command is the writing of its words and the post of them. -/
theorem operationOf_request {c : Instr} (h : requestEntry c = some e) : operationOf c = some (State.request e) := by
  cases c <;> cases h <;> rfl

/-- The content of the engine, the staging words and the waiting requests as it stands. -/
def Mask.frozen (s : State) : Mask :=
  { engine := fun _ => s.engine, staging := fun _ => s.port.staging, requests := fun _ => s.port.requests }

/-- An op leaves the engine, the staging words and the requests that wait. -/
theorem perform_leaves (e : Quad) (s : State) : (s.perform e).engine = s.engine
    ∧ (s.perform e).port.staging = s.port.staging ∧ (s.perform e).port.requests = s.port.requests := by
  have h : s.perform e = (s.perform e).mask (.frozen s) := mask_perform (.frozen s) s e
  have hengine := congrArg State.engine h
  have hstaging := congrArg (fun t => t.port.staging) h
  have hrequests := congrArg (fun t => t.port.requests) h
  exact ⟨hengine, hstaging, hrequests⟩

theorem requests_takeEntry (e : Quad) (es : List Quad) (s : State) : (s.takeEntry e es).port.requests = es := by
  unfold State.takeEntry
  rw [(perform_leaves _ _).2.2, port_clearSuspension]
  rfl

/-- The port takes its head and goes on with the rest. -/
theorem servePort_takes {es : List Quad} (h : s.port.requests = e :: es) (hi : s.port.inProgress = none)
    (hr : s.port.results.length < Config.resultLimit) : s.servePort = (s.takeEntry e es).servePort := by
  have hcan : s.port.canTake = true := canTake_iff.2 ⟨hi, hr⟩
  unfold State.servePort
  rw [requests_takeEntry, h, List.length_cons, State.serve]
  simp only [h, hcan, if_true]

theorem popResult_of_idle (h : s.port.requests = [] ∨ s.port.inProgress.isSome = true) :
    s.popResult = { s with port := { s.port with results := s.port.results.tail } } :=
  servePort_of_idle (s := s.updPort (fun p => { p with results := p.results.tail })) (h.imp_right .inl)

/-- A pop that makes room lets a CREATE at the head be handed to the engine. -/
theorem popResult_create {q : Quad} {r es : List Quad} (hres : s.port.results = q :: r) (hreq : s.port.requests = e :: es)
    (hi : s.port.inProgress = none) (hlen : r.length < 32) (hop : e.op = .create) :
    s.popResult = { s.clearSuspension e with
      port := { s.port with results := r, requests := es, inProgress := some e } } := by
  have hroom : (s.updPort (fun p => { p with results := p.results.tail })).port.results.length < Config.resultLimit := by
    show s.port.results.tail.length < 32
    rw [hres]
    exact hlen
  have htake : (s.updPort (fun p => { p with results := p.results.tail })).takeEntry e es = { s.clearSuspension e with
      port := { s.port with results := r, requests := es, inProgress := some e } } := by
    unfold State.takeEntry
    rw [perform_create _ hop, clearSuspension_updPort, clearSuspension_updPort, clearSuspension_eq]
    show ({ s with
      stations := (s.clearSuspension e).stations
      port := { s.port with results := s.port.results.tail, requests := es, inProgress := some e } } : State) = _
    rw [hres]
    rfl
  unfold State.popResult
  rw [servePort_takes (s := s.updPort (fun p => { p with results := p.results.tail })) hreq hi hroom, htake]
  exact servePort_of_idle (.inr (.inl rfl))

/-! ## A request read back from its words (R165, R192) -/

theorem Op.ofCode_inj {c d : BitVec 4} (h : Op.ofCode c = Op.ofCode d) (hd : Op.ofCode d ≠ .unknown) : c = d := by
  revert c d
  decide

/-- The fields that a take reads of every request. -/
structure Quad.SameHead (e e' : Quad) : Prop where
  opCode : e'.opCode = e.opCode
  tag : e'.tag = e.tag
  station : e'.station = e.station
  resume : e'.resume = e.resume

theorem Quad.SameHead.resultEntry {e' : Quad} (h : e.SameHead e') (b : BitVec 8) (r : Answer) :
    resultEntry e' b r = resultEntry e b r := by
  unfold Machine.resultEntry
  rw [h.tag, h.opCode]

theorem Quad.SameHead.answer {e' : Quad} (h : e.SameHead e') (r : State × Answer) : State.answer e' r = State.answer e r := by
  unfold State.answer
  rw [h.resultEntry]

theorem Quad.SameHead.clearSuspension {e' : Quad} (h : e.SameHead e') (s : State) :
    s.clearSuspension e' = s.clearSuspension e := by
  unfold State.clearSuspension
  rw [h.resume, h.station]

/-- The head of a request, read back and written again. -/
theorem sameHead_of_word0 {op : BitVec 4} (hop : e.opCode = op) (w1 w2 w3 : Word) : e.SameHead
    ⟨requestWord0 op { resume := e.resume, station := e.w0.extractLsb' 8 6, tag := e.tag }, w1, w2, w3⟩ := by
  obtain ⟨hcode, -, htag, hstation, hresume, -⟩ := Quad.head_fields op
    { resume := e.resume, station := e.w0.extractLsb' 8 6, tag := e.tag } w1 w2 w3 rfl
  exact ⟨hcode.trans hop.symm, htag, hstation, hresume⟩

theorem opCode_of_known {op : BitVec 4} (h : e.op = Op.ofCode op) (hop : Op.ofCode op ≠ .unknown) : e.opCode = op :=
  Op.ofCode_inj h hop

theorem slot_lookupSlotEntry (h : RequestHead) (n : BitVec 10) : (lookupSlotEntry h n).slot = n.toNat :=
  congrArg BitVec.toNat (entry_fields h ⟨0, 0⟩ 0 false false 0 n 0).2.2.2.1

theorem listSlotsEntry_fields (h : RequestHead) (g : Handle) (n : BitVec 10) (p : Bool) :
    (listSlotsEntry h g n p).handle = g ∧ (listSlotsEntry h g n p).startSlot = n.toNat
      ∧ (listSlotsEntry h g n p).selectsPlan = p := by
  obtain ⟨-, -, -, -, hh, hn, hp⟩ := entry_fields h g 0 false p 0 n 0
  exact ⟨hh, congrArg BitVec.toNat hn, hp⟩

/-- The request that an entry of another op than CREATE and RESIZE stands for does what the entry does. -/
theorem performs_requestOf (hc : e.op ≠ .create) (hz : e.op ≠ .resize) : ∃ e', requestEntry (requestOf e) = some e'
    ∧ ∀ s : State, s.clearSuspension e' = s.clearSuspension e ∧ s.perform e' = s.perform e := by
  have hwrite : ∀ {op : BitVec 4} {w1 w2 w3 : Word}, e.op = Op.ofCode op → Op.ofCode op ≠ .unknown → e.SameHead
      ⟨requestWord0 op { resume := e.resume, station := e.w0.extractLsb' 8 6, tag := e.tag }, w1, w2, w3⟩ :=
    fun h hop => sameHead_of_word0 (opCode_of_known h hop) _ _ _
  unfold requestOf
  cases hop : e.op with
  | create => exact absurd hop hc
  | resize => exact absurd hop hz
  | release =>
    have hs : e.SameHead (handleEntry 3 _ e.handle) := hwrite hop nofun
    refine ⟨_, rfl, fun s => ⟨hs.clearSuspension s, ?_⟩⟩
    rw [perform_release s hop, perform_release s ((congrArg Op.ofCode hs.opCode).trans hop), hs.answer, handle_handleEntry]
  | renew =>
    have hs : e.SameHead (renewEntry _ e.handle e.leaseGiven e.lease) := hwrite hop nofun
    obtain ⟨-, ⟨hh, hg, hl⟩, -⟩ := entry_fields { resume := e.resume, station := e.w0.extractLsb' 8 6, tag := e.tag } e.handle 0
      e.leaseGiven false e.lease 0 0
    refine ⟨_, rfl, fun s => ⟨hs.clearSuspension s, ?_⟩⟩
    rw [perform_renew s hop, perform_renew s ((congrArg Op.ofCode hs.opCode).trans hop), hs.answer, hh, hg, hl]
  | setStation =>
    have hs : e.SameHead (setStationEntry _ e.quota e.maxClass e.barred) := hwrite hop nofun
    obtain ⟨-, -, ⟨hq, hc, hb⟩, -⟩ := entry_fields { resume := e.resume, station := e.w0.extractLsb' 8 6, tag := e.tag }
      e.handle 0 false e.barred 0 e.quota e.maxClass
    refine ⟨_, rfl, fun s => ⟨hs.clearSuspension s, ?_⟩⟩
    rw [perform_setStation s hop, perform_setStation s ((congrArg Op.ofCode hs.opCode).trans hop), hs.answer, hs.station, hq,
      hc, hb]
  | evict =>
    have hs : e.SameHead (plainEntry 6 _) := hwrite hop nofun
    refine ⟨_, rfl, fun s => ⟨hs.clearSuspension s, ?_⟩⟩
    rw [perform_evict s hop, perform_evict s ((congrArg Op.ofCode hs.opCode).trans hop), hs.answer, hs.station]
  | retireAll =>
    have hs : e.SameHead (plainEntry 7 _) := hwrite hop nofun
    refine ⟨_, rfl, fun s => ⟨hs.clearSuspension s, ?_⟩⟩
    rw [perform_retireAll s hop, perform_retireAll s ((congrArg Op.ofCode hs.opCode).trans hop), hs.answer, hs.station]
  | lookupGrant =>
    have hs : e.SameHead (handleEntry 8 _ e.handle) := hwrite hop nofun
    refine ⟨_, rfl, fun s => ⟨hs.clearSuspension s, ?_⟩⟩
    rw [perform_lookupGrant s hop, perform_lookupGrant s ((congrArg Op.ofCode hs.opCode).trans hop), hs.resultEntry,
      handle_handleEntry]
  | lookupSlot =>
    have hs : e.SameHead (lookupSlotEntry _ (e.w1.extractLsb' 0 10)) := hwrite hop nofun
    refine ⟨_, rfl, fun s => ⟨hs.clearSuspension s, ?_⟩⟩
    rw [perform_lookupSlot s hop, perform_lookupSlot s ((congrArg Op.ofCode hs.opCode).trans hop), hs.resultEntry,
      slot_lookupSlotEntry]
    rfl
  | lookupStation =>
    have hs : e.SameHead (plainEntry 10 _) := hwrite hop nofun
    refine ⟨_, rfl, fun s => ⟨hs.clearSuspension s, ?_⟩⟩
    rw [perform_lookupStation s hop, perform_lookupStation s ((congrArg Op.ofCode hs.opCode).trans hop), hs.resultEntry,
      hs.station]
  | listSlots =>
    have hs : e.SameHead (listSlotsEntry _ e.handle (e.w2.extractLsb' 0 10) e.selectsPlan) := hwrite hop nofun
    obtain ⟨hh, hst, hp⟩ := listSlotsEntry_fields { resume := e.resume, station := e.w0.extractLsb' 8 6, tag := e.tag } e.handle
      (e.w2.extractLsb' 0 10) e.selectsPlan
    refine ⟨_, rfl, fun s => ⟨hs.clearSuspension s, ?_⟩⟩
    rw [perform_listSlots s hop, perform_listSlots s ((congrArg Op.ofCode hs.opCode).trans hop), hs.resultEntry, hh, hst, hp]
    rfl
  | census =>
    have hs : e.SameHead (plainEntry 12 _) := hwrite hop nofun
    refine ⟨_, rfl, fun s => ⟨hs.clearSuspension s, ?_⟩⟩
    rw [perform_census s hop, perform_census s ((congrArg Op.ofCode hs.opCode).trans hop), hs.resultEntry]
  | unknown =>
    have hs : e.SameHead (plainEntry e.opCode _) := sameHead_of_word0 rfl _ _ _
    refine ⟨_, rfl, fun s => ⟨hs.clearSuspension s, ?_⟩⟩
    rw [perform_unknown s hop, perform_unknown s ((congrArg Op.ofCode hs.opCode).trans hop), hs.resultEntry]

/-! ## The head result (R163) -/

theorem resultWord_nil (h : s.port.results = []) (k : Nat) : s.resultWord k = 0 := by
  unfold State.resultWord
  rw [h]

theorem resultWord_cons {q : Quad} {r : List Quad} (h : s.port.results = q :: r) :
    s.resultWord 0 = q.w0 ∧ s.resultWord 1 = q.w1 ∧ s.resultWord 2 = q.w2 ∧ s.resultWord 3 = q.w3 := by
  unfold State.resultWord
  rw [h]
  exact ⟨rfl, rfl, rfl, rfl⟩

theorem registerRead_resultCount (s : State) : s.registerRead 0x2B = BitVec.ofNat 32 s.port.results.length := rfl

end Sys2Proof.Machine

namespace Sys2Proof.Proofs

open Sys2Proof.Machine

/-- Settles O41. -/
theorem takesAtThePort : Obligations.TakesAtThePort := by
  refine ⟨fun s head f h n hr hp => ⟨exec_handedOn rfl hr hp (.inl ?_), exec_handedOn rfl hr hp (.inr ?_)⟩,
    fun s head op hr hp ho => ?_, fun s e => ⟨fun hr h1 h47 => ?_, clearSuspension_of_not⟩⟩
  · exact (Quad.head_fields 1 head _ _ _ rfl).2.1
  · exact (Quad.head_fields 2 head _ _ _ rfl).2.1
  · obtain ⟨hcode, hop, htag, -⟩ := Quad.head_fields op head 0 0 0 (e := plainEntry op head) rfl
    have hrefuses := refuses_resultEntry (plainEntry op head) .badRequest
    rw [hcode, htag] at hrefuses
    refine ⟨_, hrefuses, exec_answered rfl hr hp (perform_unknown _ ?_)⟩
    rw [hop, Op.ofCode_unknown ho]
  · refine ⟨?_, fun a ha => ?_, clearSuspension_eq e s⟩
    · rw [clearSuspension_of hr h1 h47, State.station_updStation_same]
    · rw [clearSuspension_of hr h1 h47, State.station_updStation, if_neg ha]

/-- Settles O43. -/
theorem postsAndPops : Obligations.PostsAndPops := by
  refine ⟨fun s w hr => ⟨fun hlen hb => ?_, fun hlen => ?_⟩, fun c e s hc hr => ⟨fun hlen hb => ?_, fun hlen => ?_⟩,
    fun c e w s hc hr => ?_, fun w s hr hp hnc hnr => ?_,
    fun s w hr => ⟨fun hnil => ⟨?_, fun hidle => ?_⟩, fun q r hcons => ⟨?_, fun hidle => ?_, fun e es hreq hi hlen hop => ?_⟩⟩⟩
  · rw [exec_of_ready rfl hr, post_waits hlen hb]
  · rw [exec_of_ready rfl hr, post_overruns hlen]
  · rw [exec_of_ready (operationOf_request hc) hr, State.request,
      post_waits (s := s.updPort (fun p => { p with staging := e })) hlen hb]
    rfl
  · rw [exec_of_ready (operationOf_request hc) hr, State.request,
      post_overruns (s := s.updPort (fun p => { p with staging := e })) hlen]
    rfl
  · have hready : State.ready { s with port := { s.port with staging := e } } := hr
    rw [exec_of_ready rfl hready, exec_of_ready (operationOf_request hc) hr]
    rfl
  · obtain ⟨e, he, hperform⟩ := performs_requestOf hnc hnr
    obtain ⟨hclear, -⟩ := hperform s
    obtain ⟨-, hdoes⟩ := hperform (s.clearSuspension s.port.staging)
    refine ⟨_, exec_request (operationOf_request he) hr hp, ?_⟩
    rw [exec_of_ready rfl hr]
    have hpost : s.post = s.request s.port.staging := rfl
    rw [hpost, request_of_portFree hp, hclear, hdoes]
    rfl
  · refine ⟨resultWord_nil hnil 0, resultWord_nil hnil 1, resultWord_nil hnil 2, resultWord_nil hnil 3, ?_⟩
    rw [registerRead_resultCount, hnil]
    rfl
  · rw [exec_of_ready rfl hr, popResult_of_idle hidle, hnil, List.tail_nil, ← hnil]
  · obtain ⟨h0, h1, h2, h3⟩ := resultWord_cons hcons
    refine ⟨h0, h1, h2, h3, ?_⟩
    rw [registerRead_resultCount, hcons]
    rfl
  · rw [exec_of_ready rfl hr, popResult_of_idle hidle, hcons, List.tail_cons]
  · rw [exec_of_ready rfl hr, popResult_create hcons hreq hi hlen hop]

end Sys2Proof.Proofs
end

section
/-! The port serves its heads (R163, R164, R166; O44): a take of an entry does what its post at a free port does, and an
event that hands back a result or pops one serves the requests that wait at its end. -/

namespace Sys2Proof.Machine

variable {s : State} {P : State → Prop}

/-! ## Serving goes on until the port cannot take -/

theorem serve_ends (fuel : Nat) (s : State) (h : s.port.requests.length ≤ fuel) :
    (s.serve fuel).port.requests = [] ∨ (s.serve fuel).port.canTake = false := by
  induction fuel generalizing s with
  | zero => exact .inl (List.eq_nil_of_length_eq_zero (Nat.le_zero.1 h))
  | succ n ih =>
    unfold State.serve
    cases hreq : s.port.requests with
    | nil => exact .inl hreq
    | cons e es =>
      cases hcan : s.port.canTake with
      | false => exact .inr hcan
      | true =>
        refine ih _ ?_
        rw [requests_takeEntry]
        rw [hreq, List.length_cons] at h
        omega

/-! ## What a commit keeps -/

theorem Kept.commitClaim (K : Kept P) (hcounter : ∀ n s, P s → P { s with commitCounter := n }) (i : Nat) (t : List Nat)
    (v : List Handle) (f : Grant → Grant) (h : P s) : P (s.commitClaim i t v f) := by
  have hvictims : P (v.foldl (fun s h => s.retireVictim h) s) := foldl_keeps (fun g s hs => K.retireVictim g hs) v h
  have hadvance : ∀ u, P u → P (u.advanceCommit i) := fun u hu =>
    K.grant i (fun g => { g with commitSeq := u.commitCounter + 1 }) _ (hcounter (u.commitCounter + 1) u hu)
  have hslots : ∀ u, P u → P (u.takeSlots i t) := fun u hu =>
    foldl_keeps (fun n s hs => K.recordChange n _ hs) _ (foldl_keeps (fun n s hs => K.recordChange n _ hs) t hu)
  exact K.complete _ (K.grant _ _ _ (hslots _ (hadvance _ hvictims)))

theorem port_commitClaim (i : Nat) (t : List Nat) (v : List Handle) (f : Grant → Grant) (s : State) :
    (s.commitClaim i t v f).port = s.port := (kept_port s.port).commitClaim (fun _ _ h => h) i t v f rfl

/-! ## Operations that do not look at the waiting requests -/

/-- Another content for the waiting requests. -/
def Mask.queued (l : List Quad) : Mask := { engine := id, staging := id, requests := fun _ => l }

/-- The operation does the same whatever requests wait, and leaves the port. -/
def PortBlind (g : State → State) : Prop :=
  ∀ s : State, (∀ l, g (s.mask (.queued l)) = (g s).mask (.queued l)) ∧ (g s).port = s.port

theorem portBlind_comp {f g : State → State} (hf : PortBlind f) (hg : PortBlind g) : PortBlind (fun s => f (g s)) :=
  fun s => ⟨fun l => (congrArg f ((hg s).1 l)).trans ((hf _).1 l), (hf _).2.trans (hg s).2⟩

theorem portBlind_id : PortBlind (fun s => s) := fun _ => ⟨fun _ => rfl, rfl⟩

theorem portBlind_endPlacement : PortBlind State.endPlacement := fun _ => ⟨fun _ => rfl, rfl⟩

theorem portBlind_noteKind (k : WorkKind) : PortBlind (State.noteKind k) := fun _ => ⟨fun _ => rfl, rfl⟩

theorem portBlind_setAsk (a : Nat) (x : AskStatus) : PortBlind (State.setAsk a x) := fun _ => ⟨fun _ => rfl, rfl⟩

theorem portBlind_updAsk (a : Nat) (f : AskRecord → AskRecord) : PortBlind (State.updAsk a f) := fun _ => ⟨fun _ => rfl, rfl⟩

theorem portBlind_returnRecord (i : Nat) : PortBlind (State.returnRecord i) :=
  fun s => ⟨fun _ => mask_returnRecord _ s i, (kept_port s.port).holdOneFewer _ rfl⟩

theorem portBlind_handNotice (a : Nat) (n : Notice) : PortBlind (State.handNotice a n) :=
  fun s => ⟨fun _ => mask_handNotice _ s a n, (kept_port s.port).handNotice a n rfl⟩

theorem portBlind_answerAsk (a : Nat) (q : BitVec 4) (n : Notice) : PortBlind (State.answerAsk a q n) :=
  show PortBlind (fun s => (s.handNotice a n).updAsk a (fun k => { k with lastAnswered := some q })) from
    portBlind_comp (portBlind_updAsk a _) (portBlind_handNotice a n)

theorem portBlind_commitClaim (i : Nat) (t : List Nat) (v : List Handle) (f : Grant → Grant) :
    PortBlind (State.commitClaim i t v f) :=
  fun s => ⟨fun _ => mask_commitClaim _ s i t v f, port_commitClaim i t v f s⟩

/-- A notice whose text is read off the state. -/
theorem portBlind_noticeOwner (i : Nat) {n : State → Notice} (hn : ∀ s l, n (s.mask (.queued l)) = n s) :
    PortBlind (fun s => s.noticeOwner i (n s)) :=
  fun s => ⟨fun l => (mask_noticeOwner (.queued l) s i _).trans (by rw [hn]), (kept_port s.port).noticeOwner i _ rfl⟩

/-! ## Operations that serve the waiting requests at their end -/

/-- The operation does what it does with no request waiting, and the requests that wait are then served. -/
def ServesLast (f : State → State) (s : State) : Prop :=
  (f (s.mask (.queued []))).port.requests = []
    ∧ f s = ((f (s.mask (.queued []))).mask (.queued s.port.requests)).servePort

/-- The port cannot take. -/
def State.blocked (s : State) : Prop := s.port.inProgress.isSome = true ∨ Config.resultLimit ≤ s.port.results.length

theorem servePort_of_queued_nil (s : State) : (s.mask (.queued [])).servePort = s.mask (.queued []) :=
  servePort_of_no_requests rfl

theorem mask_queued_self {t : State} (h : t.port.requests = s.port.requests) :
    (t.mask (.queued [])).mask (.queued s.port.requests) = t := by
  rw [← h]
  rfl

theorem servesLast_of_blind {g : State → State} (hg : PortBlind g) (hb : s.blocked) : ServesLast g s := by
  obtain ⟨hmask, hport⟩ := hg s
  refine ⟨by rw [hmask]; rfl, ?_⟩
  rw [hmask, mask_queued_self (by rw [hport]), servePort_of_idle]
  rw [hport]
  exact .inr hb

/-- A blind operation, another that only posts or pops, and the port serves. -/
theorem servesLast_serve {g p : State → State} (hg : PortBlind g)
    (hp : ∀ u l, p (u.mask (.queued l)) = (p u).mask (.queued l)) (hr : ∀ u, (p u).port.requests = u.port.requests) :
    ServesLast (fun s => (p (g s)).servePort) s := by
  obtain ⟨hmask, hport⟩ := hg s
  have hnone : (p (g (s.mask (.queued [])))).servePort = (p (g s)).mask (.queued []) := by
    rw [hmask, hp, servePort_of_queued_nil]
  refine ⟨congrArg (fun t => t.port.requests) hnone, ?_⟩
  dsimp only
  rw [hnone, mask_queued_self ((hr _).trans (congrArg Port.requests hport))]

theorem servesLast_handBack {g : State → State} (hg : PortBlind g) (e : Quad) (r : Answer) :
    ServesLast (fun s => (g s).handBack e r) s :=
  servesLast_serve hg (p := fun u => (u.updPort (fun p =>
    { p with inProgress := none, results := p.results ++ [resultEntry e 0 r] })).raise .result) (fun _ _ => rfl) (fun _ => rfl)

theorem servesLast_congr {f g : State → State} (h : ServesLast g s) (hs : f s = g s)
    (hm : f (s.mask (.queued [])) = g (s.mask (.queued []))) : ServesLast f s := by
  unfold ServesLast
  rw [hs, hm]
  exact h

theorem servesLast_ite {b : State → Bool} {f g : State → State} (hb : b (s.mask (.queued [])) = b s)
    (hf : b s = true → ServesLast f s) (hg : b s = false → ServesLast g s) :
    ServesLast (fun u => if b u then f u else g u) s := by
  cases h : b s with
  | true => exact servesLast_congr (hf h) (by rw [h]; rfl) (by rw [hb, h]; rfl)
  | false => exact servesLast_congr (hg h) (by rw [h]; rfl) (by rw [hb, h]; rfl)

/-- The result of a LOCAL placement, read off the state, is handed back. -/
theorem servesLast_answerLocal {g : State → State} (hg : PortBlind g) (hb : s.blocked) {r : State → Answer}
    (hr : r (s.mask (.queued [])) = r s) : ServesLast (fun s => (g s).answerLocal (r s)) s := by
  cases hi : s.port.inProgress with
  | none =>
    have hnone : ∀ u : State, u.port.inProgress = none → (g u).answerLocal (r u) = g u := fun u hu => by
      unfold State.answerLocal
      rw [(hg u).2, hu]
    exact servesLast_congr (servesLast_of_blind hg hb) (hnone s hi) (hnone _ hi)
  | some e =>
    have hsome : ∀ u : State, u.port.inProgress = some e → (g u).answerLocal (r u) = (g u).handBack e (r u) :=
      fun u hu => by
        unfold State.answerLocal
        rw [(hg u).2, hu]
    refine servesLast_congr (servesLast_handBack hg e (r s)) (hsome s hi) ((hsome (s.mask (.queued [])) hi).trans ?_)
    rw [hr]

/-! ## The commit point (R76 to R81) -/

section

variable {c : Context}

theorem servesLast_abandon (hb : s.blocked) : ServesLast (State.abandon c) s := by
  unfold State.abandon
  cases c.kind with
  | create i l =>
    exact servesLast_answerLocal (portBlind_comp portBlind_endPlacement (portBlind_returnRecord i)) hb rfl
  | resize h => exact servesLast_answerLocal portBlind_endPlacement hb rfl
  | ask i q l =>
    exact servesLast_of_blind (portBlind_comp portBlind_endPlacement
      (portBlind_comp (portBlind_setAsk c.station .none) (portBlind_returnRecord i))) hb

theorem servesLast_endNoRoom (hb : s.blocked) : ServesLast (State.endNoRoom c) s := by
  unfold State.endNoRoom
  cases c.kind with
  | create i l =>
    exact servesLast_answerLocal (portBlind_comp portBlind_endPlacement (portBlind_returnRecord i)) hb rfl
  | resize h => exact servesLast_answerLocal portBlind_endPlacement hb rfl
  | ask i q l =>
    exact servesLast_of_blind (portBlind_comp portBlind_endPlacement (portBlind_comp (portBlind_answerAsk c.station q _)
      (portBlind_comp (portBlind_setAsk c.station .none) (portBlind_returnRecord i)))) hb

/-- The commit of a LOCAL placement: the claim, the notice of its owner, and the result. -/
theorem servesLast_commitLocal (hb : s.blocked) (i : Nat) (t : List Nat) (v : List Handle) (f : Grant → Grant)
    {n : State → Notice} (hn : ∀ u l, n (u.mask (.queued l)) = n u) : ServesLast (fun s =>
      ((s.commitClaim i t v f).noticeOwner i (n (s.commitClaim i t v f))).endPlacement.answerLocal
        (.placed (((s.commitClaim i t v f).noticeOwner i (n (s.commitClaim i t v f))).handle i)
          ((s.commitClaim i t v f).effectFor [i]))) s := by
  have hblind := portBlind_comp (portBlind_noticeOwner i hn) (portBlind_commitClaim i t v f)
  have hr : ∀ u : State, ((u.mask (.queued [])).commitClaim i t v f) = (u.commitClaim i t v f).mask (.queued []) :=
    fun u => mask_commitClaim _ u i t v f
  refine servesLast_answerLocal (portBlind_comp portBlind_endPlacement hblind) hb ?_
  rw [hr, hn, mask_noticeOwner]
  rfl

theorem servesLast_commit (hb : s.blocked) (t : List Nat) (v : List Handle) :
    ServesLast (fun s => s.commit c t v) s := by
  unfold State.commit
  cases c.kind with
  | create i l =>
    exact servesLast_commitLocal hb i t v (Grant.withLease l)
      (n := fun u => .granted (u.handle i) (u.grant i).stream 0 (u.effectFor [i]).frame) (fun _ _ => rfl)
  | resize h =>
    exact servesLast_commitLocal hb h.index.toNat t v (fun g => { g with requested := c.newCount })
      (n := fun u => .shifted (u.handle h.index.toNat) c.newCount (u.effectFor [h.index.toNat]).frame) (fun _ _ => rfl)
  | ask i q l =>
    have hload : PortBlind (fun s => s.commitClaim i t v (Grant.withLease (s.cfg.leaseFor l))) := fun s =>
      ⟨fun m => mask_commitClaim (.queued m) s i t v (Grant.withLease (s.cfg.leaseFor l)), port_commitClaim i t v _ s⟩
    have hanswer : PortBlind (fun s => (s.setAsk c.station .none).answerAsk c.station q
        (.granted (s.handle i) (s.grant i).stream q (s.effectFor [i]).frame)) := fun s =>
      portBlind_comp (portBlind_answerAsk c.station q (.granted (s.handle i) (s.grant i).stream q (s.effectFor [i]).frame))
        (portBlind_setAsk c.station .none) s
    have hall := portBlind_comp portBlind_endPlacement (portBlind_comp hanswer hload)
    exact servesLast_of_blind hall hb

theorem servesLast_endWith (hb : s.blocked) : ServesLast (State.endWith c) s := by
  unfold State.endWith
  refine servesLast_ite (b := fun s => (s.station c.station).state.inMembership) rfl (fun _ => ?_)
    (fun _ => servesLast_abandon hb)
  refine servesLast_ite (b := fun s => c.kind.retiredIn s) ?_ (fun _ => ?_) (fun _ => ?_)
  · unfold PlacementKind.retiredIn
    cases c.kind <;> rfl
  · exact servesLast_answerLocal portBlind_endPlacement hb rfl
  · cases c.outcome with
    | noRoom => exact servesLast_endNoRoom hb
    | chosen t v => exact servesLast_commit hb t v

theorem servesLast_commitPoint (hb : s.blocked) : ServesLast State.commitPoint s := by
  unfold State.commitPoint
  cases hc : s.engine.context with
  | none =>
    refine servesLast_congr (servesLast_of_blind portBlind_id hb) ?_ ?_
    · rw [hc]
    · show (match s.engine.context with | none => _ | some c => _) = _
      rw [hc]
  | some c =>
    refine servesLast_congr (servesLast_endWith (c := c) hb) ?_ ?_
    · rw [hc]
    · show (match s.engine.context with | none => _ | some c => _) = _
      rw [hc]

end

/-! ## The takes (R60 to R63) -/

theorem searchesAlike_queued (own : Nat) (l : List Quad) (s : State) : SearchesAlike own s (s.mask (.queued l)) :=
  ⟨rfl, rfl, fun _ _ => rfl⟩

theorem portBlind_placeNew (k : Nat → PlacementKind) (g : Grant) (a : Nat) : PortBlind (State.placeNew k g a) := by
  refine fun s => ⟨fun l => ?_, rfl⟩
  have hcontext : (s.mask (.queued l)).newContext k g a = s.newContext k g a := by
    unfold State.newContext
    rw [(searchesAlike_queued _ l s).search]
    rfl
  have hengine := engine_placeNew_search k g a (s.mask (.queued l))
  rw [hcontext] at hengine
  have hself : (s.placeNew k g a).engine = { s.engine with context := some (s.newContext k g a) } :=
    engine_placeNew_search k g a s
  have hrest : (s.mask (.queued l)).placeNew k g a =
      { (s.placeNew k g a).mask (.queued l) with engine := ((s.mask (.queued l)).placeNew k g a).engine } := rfl
  rw [hrest, hengine]
  show { (s.placeNew k g a).mask (.queued l) with engine := { s.engine with context := some (s.newContext k g a) } } = _
  rw [← hself]
  rfl

theorem portBlind_beginResize (h : Handle) (n : Nat) : PortBlind (fun s => s.begin (s.resizeContext h n)) := by
  refine fun s => ⟨fun l => ?_, rfl⟩
  have hcontext : (s.mask (.queued l)).resizeContext h n = s.resizeContext h n := by
    unfold State.resizeContext
    rw [(searchesAlike_queued _ l s).search]
    rfl
  dsimp only
  rw [hcontext]
  rfl

theorem portBlind_takeAsk (q : Ask) : PortBlind (State.takeAsk q) := by
  intro s
  unfold State.takeAsk
  have hchecks : ∀ l, (s.mask (.queued l)).askChecks q.station (askCount q.fields) (Pattern.ofBits q.fields.pattern)
      q.fields.cls = s.askChecks q.station (askCount q.fields) (Pattern.ofBits q.fields.pattern) q.fields.cls := fun _ => rfl
  dsimp only
  simp only [hchecks]
  split
  · exact portBlind_comp (portBlind_answerAsk _ _ _) (portBlind_setAsk _ _) s
  · exact portBlind_comp (portBlind_placeNew _ _ _) (portBlind_setAsk _ _) s

theorem servesLast_takeLocal (hb : s.blocked) (e : Quad) : ServesLast (State.takeLocal e) s := by
  by_cases hop : e.op = .resize
  · have hlocal : ∀ u : State, u.takeLocal e = (u.noteKind .localBus).takeResize e := fun u => takeLocal_resize hop
    cases hc : firstFailure (s.resizeChecks e.handle e.newCount.toNat) with
    | some st =>
      exact servesLast_congr (servesLast_handBack (portBlind_noteKind .localBus) e (.refused st))
        ((hlocal s).trans (takeResize_refused (s := s.noteKind .localBus) hc))
        ((hlocal _).trans (takeResize_refused (s := (s.mask (.queued [])).noteKind .localBus) hc))
    | none =>
      exact servesLast_congr (servesLast_of_blind (portBlind_comp (portBlind_beginResize e.handle e.newCount.toNat)
          (portBlind_noteKind .localBus)) hb)
        ((hlocal s).trans (takeResize_begins (s := s.noteKind .localBus) hc))
        ((hlocal _).trans (takeResize_begins (s := (s.mask (.queued [])).noteKind .localBus) hc))
  · have hlocal : ∀ u : State, u.takeLocal e = (u.noteKind .localBus).takeCreate e := fun u => if_neg hop
    cases hc : firstFailure (s.createChecks e.station e.createFields.count.toNat (Pattern.ofBits e.createFields.pattern)) with
    | some st =>
      exact servesLast_congr (servesLast_handBack (portBlind_noteKind .localBus) e (.refused st))
        ((hlocal s).trans (takeCreate_refused (s := s.noteKind .localBus) hc))
        ((hlocal _).trans (takeCreate_refused (s := (s.mask (.queued [])).noteKind .localBus) hc))
    | none =>
      have hplaced : ∀ u : State, firstFailure (u.createChecks e.station e.createFields.count.toNat
          (Pattern.ofBits e.createFields.pattern)) = none → u.takeCreate e = u.placeNew
            (fun i => .create i e.createFields.lease)
            (grantOfCreate e.createFields ((Pattern.ofBits e.createFields.pattern).getD .any) e.tag) e.station :=
        fun u hu => by simp only [State.takeCreate, hu]
      exact servesLast_congr (servesLast_of_blind (portBlind_comp (portBlind_placeNew _ _ _)
          (portBlind_noteKind .localBus)) hb)
        ((hlocal s).trans (hplaced (s.noteKind .localBus) hc))
        ((hlocal _).trans (hplaced ((s.mask (.queued [])).noteKind .localBus) hc))

theorem servesLast_takeOnce (hb : s.blocked) : ServesLast State.takeOnce s := by
  cases hd : s.takeDue with
  | false =>
    exact servesLast_congr (servesLast_of_blind portBlind_id hb) (takeOnce_of_not_due hd)
      (takeOnce_of_not_due (s := s.mask (.queued [])) hd)
  | true =>
    obtain ⟨hidle, hwork⟩ := takeDue_iff.1 hd
    have hkind : s.engine.lastKind = .uplink ∨ s.engine.lastKind = .localBus := by cases s.engine.lastKind <;> simp
    have hlocal : ∀ e, s.port.inProgress = some e → s.askQueue = [] ∨ s.engine.lastKind = .uplink →
        ServesLast State.takeOnce s := fun e he hk =>
      servesLast_congr (servesLast_takeLocal hb e) (takeOnce_local hidle he hk)
        (takeOnce_local (s := s.mask (.queued [])) hidle he hk)
    have huplink : ∀ q r, s.askQueue = q :: r → s.port.inProgress = none ∨ s.engine.lastKind = .localBus →
        ServesLast State.takeOnce s := fun q r hq hk => by
      have hnote : PortBlind (fun s => { s.noteKind .uplink with askQueue := r }) := fun _ => ⟨fun _ => rfl, rfl⟩
      exact servesLast_congr (servesLast_of_blind (portBlind_comp (portBlind_takeAsk q) hnote) hb)
        (takeOnce_uplink hidle hq hk) (takeOnce_uplink (s := s.mask (.queued [])) hidle hq hk)
    cases hi : s.port.inProgress with
    | none =>
      cases hq : s.askQueue with
      | nil =>
        rw [hi, hq] at hwork
        exact absurd hwork (by simp)
      | cons q r => exact huplink q r hq (.inl hi)
    | some e =>
      cases hq : s.askQueue with
      | nil => exact hlocal e hi (.inl hq)
      | cons q r => exact hkind.elim (fun hk => hlocal e hi (.inr hk)) (fun hk => huplink q r hq (.inr hk))

/-! ## A pop (R163, R164) -/

theorem servesLast_popResult (s : State) : ServesLast State.popResult s :=
  servesLast_serve portBlind_id (p := fun u => u.updPort (fun p => { p with results := p.results.tail })) (fun _ _ => rfl)
    (fun _ => rfl)

theorem exec_commitPoint (hr : s.inReset = false) (hd : s.takeDue = false) :
    exec .commitPoint s = .next s.commitPoint := by
  show Host.Outcome.next _ = _
  rw [if_neg (Bool.eq_false_iff.1 hr), catchUp_of_not_due hd]

/-! ## A take of an entry (R164) -/

/-- The engine BUSY with this, this entry posted and no other waiting. -/
def Mask.posted (x : Context) (e : Quad) : Mask :=
  { engine := fun g => { g with context := some x }, staging := fun _ => e, requests := fun _ => [] }

theorem post_posted (e : Quad) (x : Context) (hi : s.port.inProgress = none) (hr : s.port.results.length < 32) :
    (s.mask (.posted x e)).post = ((s.clearSuspension e).perform e).mask (.posted x e) := by
  have hfree : (s.mask (.posted x e)).portFree := ⟨hi, rfl, hr⟩
  have hpost : (s.mask (.posted x e)).post = (s.mask (.posted x e)).request e := rfl
  rw [hpost, request_of_portFree hfree, mask_clearSuspension, mask_perform]
  rfl

/-- Any request but a CREATE or RESIZE is performed by claims and answered. -/
theorem perform_answers {e : Quad} (hc : e.op ≠ .create) (hz : e.op ≠ .resize) (s : State) :
    ∃ u q, s.perform e = u.postResult q ∧ Claimed s u := by
  unfold State.perform
  split
  · exact absurd ‹_› hc
  · exact absurd ‹_› hz
  · exact ⟨_, _, rfl, fun _ K h => K.performRelease _ h⟩
  · exact ⟨_, _, rfl, fun _ K h => K.performRenew _ _ h⟩
  · exact ⟨_, _, rfl, fun _ K h => K.performSetStation _ _ _ _ h⟩
  · exact ⟨_, _, rfl, fun _ K h => K.performEvict _ h⟩
  · exact ⟨_, _, rfl, fun _ K h => K.performRetireAll _ h⟩
  all_goals exact ⟨_, _, rfl, claimed_refl s⟩

/-- A CREATE or RESIZE is in progress after its take; any other request is answered. -/
theorem port_perform (e : Quad) (s : State) :
    (e.op = .create ∨ e.op = .resize → (s.perform e).port.inProgress = some e ∧ (s.perform e).port.results = s.port.results)
      ∧ (e.op ≠ .create → e.op ≠ .resize → (s.perform e).port.inProgress = s.port.inProgress
        ∧ ∃ q : Quad, (s.perform e).port.results = s.port.results ++ [q]) := by
  refine ⟨fun h => ?_, fun hc hz => ?_⟩
  · have hon : s.perform e = s.handOn e := h.elim (perform_create s) (perform_resize s)
    rw [hon]
    exact ⟨rfl, rfl⟩
  · obtain ⟨u, q, hp, hu⟩ := perform_answers hc hz s
    have hport : u.port = s.port := hu _ (kept_port s.port) rfl
    rw [hp]
    have hresults : (u.postResult q).port.results = u.port.results ++ [q] := rfl
    have hprogress : (u.postResult q).port.inProgress = u.port.inProgress := rfl
    exact ⟨hprogress.trans (by rw [hport]), q, hresults.trans (by rw [hport])⟩

end Sys2Proof.Machine

namespace Sys2Proof.Proofs

open Sys2Proof.Machine

/-- Settles O44. -/
theorem thePortServesItsHeads : Obligations.ThePortServesItsHeads := by
  refine ⟨⟨fun s h => servePort_of_idle h, fun s e es hreq hi hr => servePort_takes hreq hi hr, fun s => ?_⟩,
    fun s e es w x hreset hi hr => ?_, fun c s w hc hreset hdue hb => ?_, fun s w h hlen => ?_⟩
  · refine (serve_ends _ s (Nat.le_refl _)).imp_right (fun hcan => ?_)
    by_contra hno
    rw [not_or, Bool.not_eq_true, Option.isSome_eq_false_iff, Option.isNone_iff_eq_none, Nat.not_le] at hno
    exact Bool.false_ne_true (hcan.symm.trans (canTake_iff.2 hno))
  · have hpost := post_posted e x hi hr
    obtain ⟨hwaits, hanswered⟩ := port_perform e (s.clearSuspension e)
    rw [port_clearSuspension] at hwaits hanswered
    obtain ⟨hengine, hstaging, -⟩ := perform_leaves e (s.clearSuspension e)
    have hready : (s.mask (.posted x e)).ready := ⟨hreset, takeDue_of_busy rfl⟩
    have hexec := exec_of_ready (c := .rqpost w) rfl hready
    rw [hpost] at hexec
    have htake : s.takeEntry e es = ((s.clearSuspension e).perform e).mask (.queued es) := by
      rw [← mask_perform, ← mask_clearSuspension]
      rfl
    refine ⟨_, hexec, ?_, hwaits, fun hc hz => ?_⟩
    · rw [htake, ← (congrArg State.engine (clearSuspension_eq e s)), ← hengine,
        ← (congrArg Port.staging (port_clearSuspension e s)), ← hstaging]
      rfl
    · obtain ⟨hp, hq⟩ := hanswered hc hz
      exact ⟨hp.trans hi, hq⟩
  · have hserves : ∀ {f : State → State}, ServesLast f s → (∀ u : State, u.inReset = false →
        (c = .placementTake ∨ u.takeDue = false) → exec c u = .next (f u)) →
        ∃ v, exec c (s.mask (.queued [])) = .next v ∧ v.port.requests = []
          ∧ exec c s = .next (v.mask (.queued s.port.requests)).servePort := fun {f} hf hexec => by
      refine ⟨f (s.mask (.queued [])), hexec _ hreset hdue, hf.1, ?_⟩
      rw [hexec s hreset hdue, ← hf.2]
    rcases hc with rfl | rfl | rfl
    · exact hserves (servesLast_commitPoint hb) (fun u hu hd => exec_commitPoint hu (hd.resolve_left nofun))
    · exact hserves (servesLast_takeOnce hb) (fun u hu _ => exec_placementTake hu)
    · exact hserves (servesLast_popResult s) (fun u hu hd => exec_of_ready rfl ⟨hu, hd.resolve_left nofun⟩)
  · rw [exec_of_ready rfl h]
    exact congrArg _ (if_pos hlen)

end Sys2Proof.Proofs
end

section
/-! The lookups at the Request Port: LOOKUP_GRANT, LOOKUP_SLOT and LIST_SLOTS (O49), LOOKUP_STATION and CENSUS (O50)
(R171 to R175, R193). -/

namespace Sys2Proof.Machine

variable {s : State} {e : Quad}

/-! ## What a suspension clearing leaves to a lookup -/

theorem lookups_clearSuspension (e : Quad) (s : State) (h : Handle) (n : Nat) (p : Bool) :
    (s.clearSuspension e).lookupGrant h = s.lookupGrant h ∧ (s.clearSuspension e).lookupSlot n = s.lookupSlot n
      ∧ (s.clearSuspension e).listSlots h n p = s.listSlots h n p := by
  rw [clearSuspension_eq]
  exact ⟨rfl, rfl, rfl⟩

/-- The result of an OK answer, and that of a refusal. -/
theorem headed_ok {e' : Quad} (op : BitVec 4) (head : RequestHead) (w1 w2 w3 : Word)
    (he : e' = ⟨requestWord0 op head, w1, w2, w3⟩) (b : BitVec 8) (r : Answer) :
    (resultEntry e' b r).headed op r.status b head.tag := by
  obtain ⟨hcode, -, htag, -⟩ := Quad.head_fields op head w1 w2 w3 he
  have h := headed_resultEntry e' b r
  rwa [hcode, htag] at h

theorem refuses_of_refused {e' : Quad} (op : BitVec 4) (head : RequestHead) (w1 w2 w3 : Word)
    (he : e' = ⟨requestWord0 op head, w1, w2, w3⟩) {st : Status} {r : Answer} (hr : r = .refused st) :
    (resultEntry e' 0 r).refuses op st head.tag := by
  subst hr
  exact ⟨headed_ok op head w1 w2 w3 he 0 (.refused st), rfl, rfl, rfl⟩

/-! ## LOOKUP_GRANT and LOOKUP_SLOT (R171, R172) -/

theorem lookupGrant_fails {h : Handle} (hp : s.handlePasses h = false) : s.lookupGrant h = .refused .staleHandle := by
  unfold State.lookupGrant
  exact if_neg (Bool.eq_false_iff.1 hp)

theorem lookupGrant_passes {h : Handle} (hp : s.handlePasses h = true) : s.lookupGrant h =
    .ok (lookupGrantWords (s.grant h.index.toNat)).1 (lookupGrantWords (s.grant h.index.toNat)).2.1
      (lookupGrantWords (s.grant h.index.toNat)).2.2 := by
  unfold State.lookupGrant
  exact if_pos hp

theorem Pattern.ofBits_bits (p : Pattern) : Pattern.ofBits p.bits = some p := by cases p <;> rfl

/-- The fields of a LOOKUP_GRANT. -/
theorem lookupGrantWords_fields (g : Grant) (w : Word × Word × Word) (hw : w = lookupGrantWords g) :
    (w.1.extractLsb' 0 8 = g.faultCount ∧ w.1.extractLsb' 8 6 = BitVec.ofNat 6 (g.requested - 1)
      ∧ w.1.extractLsb' 14 6 = BitVec.ofNat 6 (g.owner.getD 0) ∧ w.1.extractLsb' 20 5 = g.stream
      ∧ w.1.extractLsb' 25 3 = g.state.code ∧ w.1.extractLsb' 28 2 = g.cls ∧ w.1.extractLsb' 30 2 = g.pattern.bits)
    ∧ (w.2.1.extractLsb' 0 16 = g.tag ∧ w.2.1.extractLsb' 16 7 = BitVec.ofNat 7 g.planCount
      ∧ w.2.1.extractLsb' 23 7 = BitVec.ofNat 7 g.activeCount ∧ w.2.1.getLsbD 30 = g.origin.isLocal
      ∧ w.2.1.getLsbD 31 = g.preemptible)
    ∧ (w.2.2.extractLsb' 0 16 = g.leaseRemaining ∧ w.2.2.extractLsb' 16 16 = g.commitSeq.setWidth 16) := by
  subst hw
  simp [lookupGrantWords, -BitVec.getLsbD_eq_getElem]

theorem lookupSlot_outside {n : Nat} (h : n < 64 ∨ s.timer.code.slots ≤ n) : s.lookupSlot n = .refused .badRequest := by
  unfold State.lookupSlot
  refine if_neg ?_
  show ¬ (64 ≤ n ∧ _)
  omega

theorem lookupSlot_inside {n : Nat} (hlow : 64 ≤ n) (hhigh : n < s.timer.code.slots) : s.lookupSlot n =
    .ok (0#8 ++ s.taintAt n ++ 0#6 ++ BitVec.ofNat 10 n) (ownerField ((s.activeAt n).map s.handle))
      (ownerField ((s.planAt n).map s.handle)) := by
  unfold State.lookupSlot
  exact if_pos ⟨hlow, hhigh⟩

/-! ## LIST_SLOTS (R174) -/

theorem listSlots_fails {h : Handle} {n : Nat} {p : Bool} (hp : s.handlePasses h = false) :
    s.listSlots h n p = .refused .staleHandle := by
  unfold State.listSlots
  exact if_neg (Bool.eq_false_iff.1 hp)

/-- The slots that a LIST_SLOTS finds. -/
def State.listed (h : Handle) (start : Nat) (plan : Bool) (s : State) : List Nat :=
  (List.range s.timer.code.slots).filter (fun n => decide (64 ≤ n) && decide (start ≤ n)
    && (if plan then s.planAt n else s.activeAt n) == some h.index.toNat)

theorem listSlots_passes {h : Handle} {n : Nat} {p : Bool} (hp : s.handlePasses h = true) : s.listSlots h n p =
    .ok (listSlotsWords p (s.listed h n p)).1 (listSlotsWords p (s.listed h n p)).2.1
      (listSlotsWords p (s.listed h n p)).2.2 := by
  have hfound : ((if p then s.planSlots h.index.toNat else s.activeSlots h.index.toNat).filter
      (fun m => decide (n ≤ m))) = s.listed h n p := by
    cases p
    all_goals
      simp only [Bool.false_eq_true, if_false, if_true, State.planSlots, State.activeSlots, State.payload,
        LengthCode.filter_payload, List.filter_filter, State.listed]
      refine List.filter_congr (fun m _ => ?_)
      rw [Bool.and_left_comm, Bool.and_assoc, beq_eq_decide]
  unfold State.listSlots
  rw [if_pos hp]
  dsimp only
  rw [hfound]

theorem threeSlots_fields (l : List Nat) : (threeSlots l).extractLsb' 0 10 = BitVec.ofNat 10 (l.getD 0 0)
    ∧ (threeSlots l).extractLsb' 10 10 = BitVec.ofNat 10 (l.getD 1 0)
    ∧ (threeSlots l).extractLsb' 20 10 = BitVec.ofNat 10 (l.getD 2 0) := by
  simp [threeSlots]

theorem getD_take {l : List Nat} {i k : Nat} (h : i < k) : (l.take k).getD i 0 = l.getD i 0 := by
  rw [List.getD_eq_getElem?_getD, List.getElem?_take_of_lt h, List.getD_eq_getElem?_getD]

theorem getD_drop (l : List Nat) (i k : Nat) : (l.drop k).getD i 0 = l.getD (k + i) 0 := by
  rw [List.getD_eq_getElem?_getD, List.getElem?_drop, List.getD_eq_getElem?_getD]

theorem listSlotsWords_fields (p : Bool) (l : List Nat) (w : Word × Word × Word) (hw : w = listSlotsWords p l) :
    (w.1.extractLsb' 0 3 = BitVec.ofNat 3 (min l.length 6) ∧ (w.1.getLsbD 3 = true ↔ 6 < l.length) ∧ w.1.getLsbD 4 = p
      ∧ w.1.extractLsb' 5 27 = 0)
    ∧ (w.2.1.extractLsb' 0 10 = BitVec.ofNat 10 (l.getD 0 0) ∧ w.2.1.extractLsb' 10 10 = BitVec.ofNat 10 (l.getD 1 0)
      ∧ w.2.1.extractLsb' 20 10 = BitVec.ofNat 10 (l.getD 2 0))
    ∧ (w.2.2.extractLsb' 0 10 = BitVec.ofNat 10 (l.getD 3 0) ∧ w.2.2.extractLsb' 10 10 = BitVec.ofNat 10 (l.getD 4 0)
      ∧ w.2.2.extractLsb' 20 10 = BitVec.ofNat 10 (l.getD 5 0)) := by
  subst hw
  refine ⟨by simp [listSlotsWords, -BitVec.getLsbD_eq_getElem], ?_, ?_⟩
  · obtain ⟨h0, h1, h2⟩ := threeSlots_fields (l.take 3)
    rw [getD_take (by omega)] at h0 h1 h2
    exact ⟨h0, h1, h2⟩
  · obtain ⟨h0, h1, h2⟩ := threeSlots_fields ((l.drop 3).take 3)
    rw [getD_take (by omega), getD_drop] at h0 h1 h2
    exact ⟨h0, h1, h2⟩

/-! ## LOOKUP_STATION (R173) -/

theorem station_clearSuspension (e : Quad) (s : State) (a : Nat) : (s.clearSuspension e).station a =
    { s.station a with
      suspended := (s.station a).suspended && !(e.resume && isStation e.station && decide (a = e.station)) } := by
  unfold State.clearSuspension State.setSuspended
  by_cases h : (e.resume && isStation e.station) = true
  · rw [if_pos h, h, State.station_updStation]
    by_cases ha : a = e.station
    · subst ha
      simp
    · simp [ha]
  · rw [if_neg h, Bool.eq_false_iff.2 h]
    simp

theorem lookupStation_outside {a : Nat} (h : a = 0 ∨ 48 ≤ a) : s.lookupStation a = .refused .badRequest := by
  unfold State.lookupStation
  refine if_neg ?_
  rw [isStation_iff]
  omega

/-- A LOOKUP_STATION answers the record after its own suspension clearing. -/
theorem lookupStation_inside {a : Nat} (he : e.station = a) (h1 : 1 ≤ a) (h47 : a ≤ 47) :
    ∃ w, w = lookupStationWords { s.station a with suspended := (s.station a).suspended && !e.resume } (s.ask a)
        (s.mailbox a).queue.length
      ∧ (s.clearSuspension e).lookupStation a = .ok w.1 w.2.1 w.2.2 := by
  have hstation : (s.clearSuspension e).station a =
      { s.station a with suspended := (s.station a).suspended && !e.resume } := by
    rw [station_clearSuspension, he, isStation_iff.2 ⟨h1, h47⟩, decide_eq_true rfl, Bool.and_true, Bool.and_true]
  have hrest : (s.clearSuspension e).ask a = s.ask a ∧ (s.clearSuspension e).mailbox a = s.mailbox a := by
    rw [clearSuspension_eq]
    exact ⟨rfl, rfl⟩
  refine ⟨_, rfl, ?_⟩
  unfold State.lookupStation
  rw [if_pos (isStation_iff.2 ⟨h1, h47⟩), hstation, hrest.1, hrest.2]

/-- The fields of a LOOKUP_STATION. -/
theorem lookupStationWords_fields (r : Station) (k : AskRecord) (queued : Nat) (w : Word × Word × Word)
    (hw : w = lookupStationWords r k queued) :
    (w.1.extractLsb' 0 3 = r.state.code ∧ w.1.extractLsb' 3 3 = leaveReasonCode r.leaveReason ∧ w.1.getLsbD 6 = r.barred
      ∧ w.1.getLsbD 7 = r.suspended ∧ w.1.extractLsb' 8 8 = r.missed ∧ w.1.extractLsb' 16 10 = r.quota
      ∧ w.1.extractLsb' 26 2 = r.maxClass ∧ w.1.extractLsb' 28 4 = BitVec.ofNat 4 queued)
    ∧ (w.2.1.extractLsb' 0 8 = r.badWords ∧ w.2.1.extractLsb' 8 8 = r.clashes
      ∧ w.2.1.extractLsb' 16 5 = BitVec.ofNat 5 r.held ∧ w.2.1.extractLsb' 22 10 = BitVec.ofNat 10 r.planned)
    ∧ (w.2.2.extractLsb' 0 2 = k.status.code ∧ w.2.2.extractLsb' 4 4 = k.status.seq.getD 0
      ∧ w.2.2.getLsbD 8 = k.lastAnswered.isSome ∧ w.2.2.extractLsb' 12 4 = k.lastAnswered.getD 0) := by
  subst hw
  simp [lookupStationWords, -BitVec.getLsbD_eq_getElem]

/-! ## CENSUS (R175) -/

theorem memberCount_eq (s : State) : s.memberCount = (List.range 48).countP (fun a => decide (1 ≤ a)
    && ((s.station a).state == .member || (s.station a).state == .quiet)) := by
  have hsplit : List.range 48 = 0 :: List.range' 1 47 := by decide
  rw [hsplit, List.countP_cons_of_neg (by simp)]
  unfold State.memberCount
  refine List.countP_congr (fun a ha => ?_)
  have h1 : 1 ≤ a := (List.mem_range'_1.1 ha).1
  rw [inMembership_iff]
  simp [h1]

/-- A census does not see a suspension. -/
theorem census_clearSuspension (e : Quad) (s : State) :
    (s.clearSuspension e).census = s.census ∧ (s.clearSuspension e).recordsInUse = s.recordsInUse := by
  have hmembers : (s.clearSuspension e).memberCount = s.memberCount := by
    unfold State.memberCount
    simp only [station_clearSuspension]
  unfold State.census
  rw [hmembers, clearSuspension_eq]
  exact ⟨rfl, rfl⟩

/-- A field that takes in zeros only. -/
theorem extract_zeros {m : Nat} (x : BitVec m) (a b : Nat) : (x ++ 0#a ++ 0#b).extractLsb' 0 (a + b) = 0#(a + b) := by
  apply BitVec.eq_of_getLsbD_eq
  intro i hi
  rw [BitVec.getLsbD_extractLsb', BitVec.getLsbD_append, BitVec.getLsbD_append]
  by_cases hb : i < b
  · simp [hb]
  · simp [hb, show i - b < a by omega]

/-- The fields of a CENSUS. -/
theorem census_fields (s : State) (w : Word × Word × Word) (hw : w = s.census.words) :
    (w.1.extractLsb' 0 10 = BitVec.ofNat 10 s.freeSlots ∧ w.1.extractLsb' 10 10 = BitVec.ofNat 10 s.taintedSlots
      ∧ w.1.extractLsb' 20 10 = BitVec.ofNat 10 (s.map.sealedEpoch.elim 0 Epoch.changeCount)
      ∧ w.1.getLsbD 30 = s.map.sealedEpoch.isSome ∧ w.1.getLsbD 31 = s.map.openEpoch.isSome)
    ∧ (w.2.1.extractLsb' 0 16 = s.map.sealedEpoch.elim 0 Epoch.effective
      ∧ w.2.1.extractLsb' 16 8 = s.map.sealedEpoch.elim 0 Epoch.number
      ∧ w.2.1.extractLsb' 24 8 = s.map.openEpoch.elim 0 Epoch.number
      ∧ (s.map.sealedEpoch = none → w.2.1.extractLsb' 0 24 = 0))
    ∧ (w.2.2.extractLsb' 0 16 = s.map.openEpoch.elim 0 Epoch.effective
      ∧ w.2.2.extractLsb' 16 10 = BitVec.ofNat 10 (s.map.openEpoch.elim 0 Epoch.changeCount)
      ∧ w.2.2.extractLsb' 26 6 = BitVec.ofNat 6 s.memberCount
      ∧ (s.map.openEpoch = none → w.2.2.extractLsb' 0 26 = 0)) := by
  subst hw
  refine ⟨?_, ⟨?_, ?_, ?_, fun h => ?_⟩, ?_, ?_, ?_, fun h => ?_⟩
  · simp [State.census, Answer.ok, -BitVec.getLsbD_eq_getElem]
  · simp [State.census, Answer.ok]
  · simp [State.census, Answer.ok]
  · simp [State.census, Answer.ok]
  · simp only [State.census, Answer.ok, h, Option.elim_none]
    exact extract_zeros _ 8 16
  · simp [State.census, Answer.ok]
  · simp [State.census, Answer.ok]
  · simp [State.census, Answer.ok]
  · simp only [State.census, Answer.ok, h, Option.elim_none]
    exact extract_zeros _ 10 16

end Sys2Proof.Machine

namespace Sys2Proof.Proofs

open Sys2Proof.Machine

/-- Settles O49. -/
theorem grantAndSlotLookupsReport : Obligations.GrantAndSlotLookupsReport := by
  refine ⟨fun s head h hr hp => ?_, fun s head n hr hp => ?_, fun s head h start plan hr hp => ?_⟩
  · have hop : (handleEntry 8 head h).op = .lookupGrant := (Quad.head_fields 8 head _ _ _ rfl).2.1
    refine ⟨_, exec_answered rfl hr hp (perform_lookupGrant _ hop), fun hfail => ?_, fun hpass => ?_⟩
    · rw [handle_handleEntry, (lookups_clearSuspension _ s h 0 false).1]
      exact refuses_of_refused 8 head _ _ _ rfl (lookupGrant_fails hfail)
    · rw [handle_handleEntry, (lookups_clearSuspension _ s h 0 false).1, lookupGrant_passes hpass]
      refine ⟨headed_ok 8 head _ _ _ rfl 0 _, ?_⟩
      rintro g rfl
      obtain ⟨⟨hfault, hreq, howner, hstream, hstate, hcls, hpat⟩, ⟨htag, hplan, hactive, horigin, hpre⟩, hlease⟩ :=
        lookupGrantWords_fields (s.grant h.index.toNat) _ rfl
      refine ⟨⟨hfault, hreq, howner, hstream, fun hs => ?_, fun hs => ?_, fun hs => ?_, fun hs => ?_, hcls, ?_⟩,
        ⟨htag, hplan, hactive, ?_, hpre⟩, hlease⟩
      · exact hstate.trans (by rw [hs]; rfl)
      · exact hstate.trans (by rw [hs]; rfl)
      · exact hstate.trans (by rw [hs]; rfl)
      · exact hstate.trans (by rw [hs]; rfl)
      · exact (congrArg Pattern.ofBits hpat).trans (Pattern.ofBits_bits _)
      · refine (Eq.congr_left horigin).trans ?_
        cases (s.grant h.index.toNat).origin <;> simp [Origin.isLocal]
  · have hop : (lookupSlotEntry head n).op = .lookupSlot := (Quad.head_fields 9 head _ _ _ rfl).2.1
    refine ⟨_, exec_answered rfl hr hp (perform_lookupSlot _ hop), fun hout => ?_, fun hlow hhigh => ?_⟩
    · rw [slot_lookupSlotEntry, (lookups_clearSuspension _ s ⟨0, 0⟩ n.toNat false).2.1]
      exact refuses_of_refused 9 head _ _ _ rfl (lookupSlot_outside hout)
    · rw [slot_lookupSlotEntry, (lookups_clearSuspension _ s ⟨0, 0⟩ n.toNat false).2.1, lookupSlot_inside hlow hhigh]
      refine ⟨headed_ok 9 head _ _ _ rfl 0 _, ?_, ?_, fun hn => ?_, fun i hi => ?_, fun hn => ?_, fun i hi => ?_⟩
      · simp [resultEntry, Answer.ok]
      · simp [resultEntry, Answer.ok]
      · simp [resultEntry, Answer.ok, hn, ownerField]
      · simp [resultEntry, Answer.ok, hi, ownerField]
      · simp [resultEntry, Answer.ok, hn, ownerField]
      · simp [resultEntry, Answer.ok, hi, ownerField]
  · have hop : (listSlotsEntry head h start plan).op = .listSlots := (Quad.head_fields 11 head _ _ _ rfl).2.1
    obtain ⟨hh, hstart, hplan⟩ := listSlotsEntry_fields head h start plan
    refine ⟨_, exec_answered rfl hr hp (perform_listSlots _ hop), fun hfail => ?_, fun hpass l hl => ?_⟩
    · rw [hh, (lookups_clearSuspension _ s h _ _).2.2]
      exact refuses_of_refused 11 head _ _ _ rfl (listSlots_fails hfail)
    · rw [hh, hstart, hplan, (lookups_clearSuspension _ s h _ _).2.2, listSlots_passes hpass]
      have hl' : l = s.listed h start.toNat plan := hl
      obtain ⟨⟨hlen, hmore, hmap, hzero⟩, hfirst, hsecond⟩ := listSlotsWords_fields plan l _ rfl
      rw [← hl']
      exact ⟨headed_ok 11 head _ _ _ rfl 0 _, hlen, hmore, hmap, hzero, hfirst, hsecond⟩

/-- Settles O50. -/
theorem stationAndCensusLookupsReport : Obligations.StationAndCensusLookupsReport := by
  refine ⟨fun s head hr hp => ?_, fun s head hr hp => ?_⟩
  · obtain ⟨-, hop, -, hstation, hresume, -⟩ := Quad.head_fields 10 head 0 0 0 (e := plainEntry 10 head) rfl
    refine ⟨_, exec_answered rfl hr hp (perform_lookupStation _ hop), fun hout => ?_, fun h1 h47 => ?_⟩
    · refine refuses_of_refused 10 head _ _ _ rfl (lookupStation_outside ?_)
      rw [hstation]
      exact hout.imp_left (fun h => by rw [h]; rfl)
    · obtain ⟨w, hw, hlookup⟩ := lookupStation_inside (s := s) hstation h1 h47
      rw [hstation, hlookup]
      refine ⟨headed_ok 10 head _ _ _ rfl 0 _, ?_⟩
      rintro r k rfl rfl
      obtain ⟨hrecord, hcounts, hcode, hseq, hlast⟩ := lookupStationWords_fields _ _ _ w hw
      rw [hresume] at hrecord
      refine ⟨hrecord, hcounts, fun hk => ?_, fun x hk => ?_, fun x hk => ?_, hlast⟩
      · rw [hk] at hcode hseq
        exact ⟨hcode, hseq⟩
      · rw [hk] at hcode hseq
        exact ⟨hcode, hseq⟩
      · rw [hk] at hcode hseq
        exact ⟨hcode, hseq⟩
  · have hop : (plainEntry 12 head).op = .census := (Quad.head_fields 12 head _ _ _ rfl).2.1
    obtain ⟨⟨hfree, htaint, hchanges, hsealed, hopen⟩, ⟨heff, hno, hono, hz⟩, ⟨hoeff, hochanges, hmembers, hoz⟩⟩ :=
      census_fields s _ rfl
    refine ⟨_, exec_answered rfl hr hp (perform_census _ hop), ?_⟩
    rw [(census_clearSuspension _ s).1, (census_clearSuspension _ s).2]
    refine ⟨headed_ok 12 head _ _ _ rfl _ _, hfree, htaint, hsealed, hopen, ?_, fun e he => ?_, fun h => ?_, fun e he => ?_,
      fun h => ?_⟩
    · exact hmembers.trans (by rw [memberCount_eq])
    · rw [he] at hchanges heff hno
      exact ⟨hchanges, heff, hno⟩
    · rw [h] at hchanges
      exact ⟨hchanges, hz h⟩
    · rw [he] at hochanges hoeff hono
      exact ⟨hochanges, hoeff, hono⟩
    · rw [h] at hono
      exact ⟨hoz h, hono⟩

end Sys2Proof.Proofs
end

section
/-! The course of a frame: frame starts (O6), what follows each slot (O8) and the frame end's counts (O10)
(R5 to R11, R37, R85, R138, R142, R143). -/

namespace Sys2Proof.Machine

variable {s : State} {P : State → Prop}

/-! ## What the frame's own events keep -/

/-- A property that the writes of claims and those of the frame's own events keep: the Frame Timer, the maps, the
mailboxes and the downlink words. -/
structure FrameKept (P : State → Prop) : Prop extends Kept P where
  timer : ∀ f s, P s → P (s.updTimer f)
  maps : ∀ f s, P s → P (s.updMap f)
  mailboxes : ∀ l s, P s → P { s with mailboxes := l }
  downlink : ∀ w p s, P s → P { s with downlink := w, arbiterPointer := p }

namespace FrameKept

theorem goTo (K : FrameKept P) (p : FramePlace) (h : P s) : P (s.goTo p) := K.timer _ _ h

theorem frameStart (K : FrameKept P) (h : P s) : P s.frameStart := K.goTo _ (K.toKept.epochsAtStart K.maps h)

theorem endIfDue (K : FrameKept P) (h : P s) : P s.endIfDue := by
  unfold State.endIfDue
  split
  · rw [frameEnd_eq]
    exact K.timer _ _ (endParts_keeps (fun _ h => K.tickIfDue h) (fun u h => K.maps _ u h) (fun u h => K.mailboxes _ u h) _ h)
  all_goals exact h

theorem startIfDue (K : FrameKept P) (h : P s) : P s.startIfDue := by
  unfold State.startIfDue
  split
  · exact K.frameStart h
  · exact h

theorem serveStation (K : FrameKept P) (a : Nat) (h : P s) : P (s.serveStation a) := by
  unfold State.serveStation
  dsimp only
  split
  · exact h
  · exact K.downlink _ _ _ (K.mailboxes _ _ h)

theorem examine (K : FrameKept P) (l : List Nat) (n : Nat) (h : P s) : P (State.examine l n s) := by
  induction l generalizing s n with
  | nil => cases n <;> exact h
  | cons a l ih =>
    cases n with
    | zero => exact h
    | succ n =>
      unfold State.examine
      split
      · split
        · refine ih _ ?_
          unfold State.reportNoAck
          split
          · exact K.failJoin _ _ h
          · exact K.enterLeaving _ _ h
        · exact ih _ (K.serveStation _ h)
      · exact ih _ h

theorem arbitrateIfDue (K : FrameKept P) (h : P s) : P s.arbitrateIfDue := by
  unfold State.arbitrateIfDue
  split
  · exact K.goTo _ (K.examine _ _ (K.downlink [] s.arbiterPointer s h))
  · exact h

theorem reachSlot (K : FrameKept P) (h : P s) : P s.reachSlot := K.arbitrateIfDue (K.startIfDue (K.endIfDue h))

end FrameKept

/-- A frame's events hand the engine no work. -/
theorem frameKept_ready : FrameKept State.ready where
  grant _ _ _ h := h
  station _ _ _ h := h
  ask _ _ _ h := h
  mailbox _ _ _ _ h := h
  flag _ _ h := h
  freeQueue _ _ h := h
  askQueue q s hq h := by
    refine ⟨h.1, takeDue_eq_false_iff.2 ((takeDue_eq_false_iff.1 h.2).imp_right (fun hw => ⟨hw.1, ?_⟩))⟩
    exact List.sublist_nil.1 (hw.2 ▸ hq)
  record _ _ s _ h := by
    unfold State.openIfNone
    split <;> exact h
  timer _ _ h := h
  maps _ _ h := h
  mailboxes _ _ h := h
  downlink _ _ _ h := h

/-! ## Where the frame stands (R9 to R11, R143; log 7) -/

theorem place_stopped (h : s.timer.timing = .stopped) : s.timer.place = none := by rw [Timer.place, h]

theorem endIfDue_of_not_due (h : ∀ k, ¬ s.endIsDue k) : s.endIfDue = s := by
  unfold State.endIfDue
  split
  · rename_i k hk
    exact absurd (Timer.place_eq_some hk) (h k)
  all_goals rfl

theorem endIfDue_of_endDue {k : EndParts} (h : s.endIsDue k) : s.endIfDue = s.frameEnd k := frameEnd_of_endDue h

theorem startIfDue_of_startDue (h : s.timer.timing = .running .startDue) : s.startIfDue = s.frameStart := by
  unfold State.startIfDue
  exact if_pos (Timer.place_running h)

theorem startIfDue_of_not_due (h : s.timer.timing ≠ .running .startDue) : s.startIfDue = s := by
  unfold State.startIfDue
  exact if_neg (fun hp => h (Timer.place_eq_some hp))

theorem arbitrateIfDue_of_not_due (h : s.timer.timing ≠ .running .arbitrationDue) : s.arbitrateIfDue = s := by
  unfold State.arbitrateIfDue
  exact if_neg (fun hp => h (Timer.place_eq_some hp))

theorem arbitrateIfDue_of_due (h : s.timer.timing = .running .arbitrationDue) :
    s.arbitrateIfDue = s.arbitrate.goTo (.slot 48) := by
  unfold State.arbitrateIfDue
  exact if_pos (Timer.place_running h)

theorem timing_frameStart (s : State) : s.frameStart.timer.timing = .running (.slot 0) := rfl

theorem timing_afterFrame (t : Timer) : t.afterFrame.timing = .stopped ∨ t.afterFrame.timing = .running .startDue := by
  unfold Timer.afterFrame
  split
  · exact .inl rfl
  · exact .inr rfl

theorem timer_frameEnd (k : EndParts) (s : State) : (s.frameEnd k).timer = s.timer.afterFrame := by
  rw [frameEnd_eq, State.timer_updTimer, timer_endParts]

theorem not_endIsDue_frameEnd (k : EndParts) (s : State) : ∀ j, ¬ (s.frameEnd k).endIsDue j := by
  intro j hj
  have hplace : s.timer.afterFrame.timing = .running (.endDue j) := (congrArg Timer.timing (timer_frameEnd k s)).symm.trans hj
  rcases timing_afterFrame s.timer with h | h
  · nomatch h.symm.trans hplace
  · nomatch h.symm.trans hplace

theorem endIfDue_endIfDue (s : State) : s.endIfDue.endIfDue = s.endIfDue := by
  by_cases h : ∃ k, s.endIsDue k
  · obtain ⟨k, hk⟩ := h
    rw [endIfDue_of_endDue hk, endIfDue_of_not_due (not_endIsDue_frameEnd k s)]
  · rw [endIfDue_of_not_due (not_exists.1 h), endIfDue_of_not_due (not_exists.1 h)]

/-! ## The commands of the frame, RESETn HIGH and no take due -/

theorem exec_frameStart (h : s.ready) : exec .frameStart s = .next s.endIfDue.startIfDue :=
  exec_of_ready (f := fun s => s.endIfDue.startIfDue) rfl h

theorem exec_frameEnd (h : s.ready) : exec .frameEnd s = .next s.endIfDue := exec_of_ready rfl h

theorem exec_arbitration (h : s.ready) : exec .downlinkArbitration s = .next s.arbitrateIfDue := exec_of_ready rfl h

theorem exec_slotEvent (h : s.ready) (act : BitVec 2) (w : Word) :
    exec (.slotEvent act w) s = .next (s.slotEvent (Sense.ofAct act) w) := exec_of_ready rfl h

/-- FRAME_START where no frame end is due but a frame start is. -/
theorem exec_frameStart_due (h : s.ready) (ht : s.timer.timing = .running .startDue) :
    exec .frameStart s = .next s.frameStart := by
  rw [exec_frameStart h, endIfDue_of_not_due (fun k hk => nomatch ht.symm.trans hk), startIfDue_of_startDue ht]

theorem highwayStart_of (ht : s.timer.timing = .stopped) (hr : s.timer.request = .start) : s.highwayStart =
    State.frameStart { s with timer := { s.timer with timing := .running .startDue, request := .none } } := by
  unfold State.highwayStart
  exact if_pos ⟨ht, hr⟩

theorem highwayStart_of_not (h : s.timer.timing ≠ .stopped ∨ s.timer.request ≠ .start) : s.highwayStart = s := by
  unfold State.highwayStart
  exact if_neg (fun hc => h.elim (fun ht => ht hc.1) (fun hr => hr hc.2))

/-! ## The epochs at a frame start (R49, R50) -/

theorem swapIfDue_of_not (h : ∀ e, s.map.sealedEpoch = some e → e.effective ≠ s.timer.fn) : s.swapIfDue = s := by
  unfold State.swapIfDue
  split
  · exact if_neg (h _ ‹_›)
  · rfl

theorem sealIfDue_of_not (h : ∀ e, s.map.openEpoch = some e → e.sealFrame ≠ s.timer.fn) : s.sealIfDue = s := by
  unfold State.sealIfDue
  split
  · exact if_neg (fun hc => h _ ‹_› hc.1)
  · rfl

theorem sealIfDue_of {e : Epoch} (hs : s.map.sealedEpoch = none) (ho : s.map.openEpoch = some e)
    (he : e.sealFrame = s.timer.fn) : s.sealIfDue = s.sealOpen := by
  unfold State.sealIfDue
  rw [ho]
  exact if_pos ⟨he, hs⟩

theorem frameStart_of_no_epoch (hs : ∀ e, s.map.sealedEpoch = some e → e.effective ≠ s.timer.fn)
    (ho : ∀ e, s.map.openEpoch = some e → e.sealFrame ≠ s.timer.fn) : s.frameStart = s.goTo (.slot 0) := by
  rw [State.frameStart, epochsAtStart_eq, swapIfDue_of_not hs, sealIfDue_of_not ho]

theorem frameStart_of_seal {e : Epoch} (hs : s.map.sealedEpoch = none) (ho : s.map.openEpoch = some e)
    (he : e.sealFrame = s.timer.fn) : s.frameStart = { s with
      timer := { s.timer with timing := .running (.slot 0) }
      map := { s.map with sealedEpoch := some e, openEpoch := none } } := by
  rw [State.frameStart, epochsAtStart_eq, swapIfDue_of_not (by rw [hs]; nofun), sealIfDue_of hs ho he, ← ho]
  rfl

/-! ## Slot events (R10, R11, R143) -/

theorem slotEvent_congr {t : State} (h : s.reachSlot = t.reachSlot) (x : Sense) (w : Word) :
    s.slotEvent x w = t.slotEvent x w := by
  unfold State.slotEvent
  rw [h]

theorem reachSlot_of_stopped (h : s.timer.timing = .stopped) : s.reachSlot = s := by
  rw [State.reachSlot, endIfDue_of_not_due (fun k hk => nomatch h.symm.trans hk),
    startIfDue_of_not_due (by rw [h]; nofun), arbitrateIfDue_of_not_due (by rw [h]; nofun)]

theorem slotEvent_of_stopped (h : s.timer.timing = .stopped) (x : Sense) (w : Word) : s.slotEvent x w = s := by
  unfold State.slotEvent
  rw [reachSlot_of_stopped h]
  dsimp only
  rw [place_stopped h]

theorem partsTaken_stopped (h : s.timer.timing = .stopped) : s.partsTaken = none := by
  rw [State.partsTaken, place_stopped h]

theorem leaseTick_of_not_due (h : ∀ p, ¬ s.tickIsDue p) : s.leaseTick = s := by
  rw [State.leaseTick, takeTick_eq]
  split
  · rfl
  · rename_i p hp
    refine if_neg (fun hc => h p ⟨Timer.place_eq_some (place_of_partsTaken hp), hc.2.2, ?_⟩)
    simpa [Timer.tickFrame] using hc.2.1

theorem leaseTick_of_stopped (h : s.timer.timing = .stopped) : s.leaseTick = s := by
  rw [State.leaseTick, takeTick_eq, partsTaken_stopped h]

/-- Taking the frame start that is due first changes nothing of what precedes the slot to be closed. -/
theorem reachSlot_startDue (h : s.timer.timing = .running .startDue) :
    s.reachSlot = s.endIfDue.startIfDue.reachSlot := by
  have hstart : s.endIfDue.startIfDue = s.frameStart := by
    rw [endIfDue_of_not_due (fun k hk => nomatch h.symm.trans hk), startIfDue_of_startDue h]
  rw [hstart, reachSlot_of_slot (s := s.frameStart) (place_goTo _ _), State.reachSlot, hstart,
    arbitrateIfDue_of_not_due (by rw [timing_frameStart]; nofun)]

theorem reachSlot_arbitrationDue (h : s.timer.timing = .running .arbitrationDue) :
    s.reachSlot = s.arbitrateIfDue.reachSlot := by
  rw [arbitrateIfDue_of_due h, reachSlot_of_slot (place_goTo _ _), State.reachSlot,
    endIfDue_of_not_due (fun k hk => nomatch h.symm.trans hk), startIfDue_of_not_due (by rw [h]; nofun),
    arbitrateIfDue_of_due h]

theorem reachSlot_endIfDue (s : State) : s.reachSlot = s.endIfDue.reachSlot := by
  rw [State.reachSlot, State.reachSlot, endIfDue_endIfDue]

/-! ## The frame end (R7, R11, R37, R85, R138, R142) -/

theorem tickFrame_iff {t : Timer} : t.tickFrame = true ↔ t.fn.toNat % 256 = 255 := by
  simp [Timer.tickFrame]

theorem tickIfDue_of_not_due {p : EndParts} (he : s.endIsDue p) (h : ¬ s.tickIsDue p) :
    (if p.leases then s else s.tickIfDue) = s := by
  by_cases hl : p.leases = true
  · rw [if_pos hl]
  · rw [if_neg hl, State.tickIfDue]
    exact if_neg (fun ht => h ⟨he, Bool.eq_false_iff.2 hl, tickFrame_iff.1 ht⟩)

/-- A frame end without a lease tick, part by part. -/
theorem frameEnd_of_no_tick {p : EndParts} (he : s.endIsDue p) (h : ¬ s.tickIsDue p) : s.frameEnd p = { s with
    timer := s.timer.afterFrame
    map := { s.map with taint := if p.taint then s.map.taint else s.decayTaint.map.taint }
    mailboxes := if p.notices then s.mailboxes else s.countDownNotices.mailboxes } := by
  unfold State.frameEnd
  rw [tickIfDue_of_not_due he h]
  cases p.taint <;> cases p.notices <;> rfl

theorem taintDecays_decayTaint (h : s.map.taint.wf 0 = true) : s.taintDecays s.decayTaint := fun n => by
  rw [State.taint_decayTaint h]
  unfold decNonzero
  split
  · assumption
  · rfl

theorem noticesCountDown_countDownNotices (h : s.mailboxes.wf Mailbox.fresh = true) :
    s.noticesCountDown s.countDownNotices := fun a => by
  rw [State.mailbox_countDownNotices h]
  exact ⟨rfl, rfl, rfl, rfl⟩

theorem updTimer_afterFrame_goTo (s : State) (p : FramePlace) :
    (s.goTo p).updTimer Timer.afterFrame = s.updTimer Timer.afterFrame := by
  have htimer : ({ s.timer with timing := .running p } : Timer).afterFrame = s.timer.afterFrame := by
    unfold Timer.afterFrame
    split <;> rfl
  show { s with timer := ({ s.timer with timing := .running p } : Timer).afterFrame } = _
  rw [htimer]
  rfl

theorem endParts_goTo (p : EndParts) (q : FramePlace) (s : State) :
    (s.goTo q).endParts { p with leases := true } = (s.endParts { p with leases := true }).goTo q := by
  unfold State.endParts
  cases p.taint <;> cases p.notices <;> rfl

/-- The lease tick taken as a step of its own, and the rest of the frame end after it. -/
theorem frameEnd_of_tick {p : EndParts} (h : s.tickIsDue p) :
    s.leaseTick = s.tick.goTo (.endDue { p with leases := true })
      ∧ (s.tick.goTo (.endDue { p with leases := true })).frameEnd { p with leases := true } = s.frameEnd p := by
  obtain ⟨he, hl, hfn⟩ := h
  have htick : s.timer.tickFrame = true := tickFrame_iff.2 hfn
  refine ⟨?_, ?_⟩
  · rw [State.leaseTick, takeTick_eq, partsTaken_of_endDue he]
    exact if_pos ⟨rfl, htick, hl⟩
  · have hdue : s.tickIfDue = s.tick := by
      unfold State.tickIfDue
      exact if_pos htick
    rw [frameEnd_eq, endParts_goTo, updTimer_afterFrame_goTo, frameEnd_eq]
    unfold State.endParts
    rw [hl, hdue]
    rfl

end Sys2Proof.Machine

namespace Sys2Proof.Proofs

open Sys2Proof.Machine

/-- Settles O6. -/
theorem framesStart : Obligations.FramesStart := by
  refine ⟨fun s h => ⟨fun hs ho => ⟨fun ht hr => ?_, fun ht => ?_⟩, fun hno => ?_, fun ht hk => ?_, fun k hk => ?_⟩,
    fun s e h hs ho he => ⟨fun ht => ?_, fun ht hr => ?_⟩, fun s h ht hr => ?_⟩
  · rw [exec_of_ready rfl h, highwayStart_of ht hr]
    exact congrArg _ (frameStart_of_no_epoch
      (s := { s with timer := { s.timer with timing := .running .startDue, request := .none } }) hs ho)
  · rw [exec_frameStart_due h ht, frameStart_of_no_epoch hs ho]
    rfl
  · rw [exec_of_ready rfl h, highwayStart_of_not hno]
  · rw [exec_frameStart h, endIfDue_of_not_due hk, startIfDue_of_not_due ht]
  · refine ⟨_, exec_frameEnd h, ?_⟩
    rw [exec_frameStart h, exec_frameStart (frameKept_ready.endIfDue h), endIfDue_endIfDue]
  · rw [exec_frameStart_due h ht, frameStart_of_seal hs ho he]
  · rw [exec_of_ready rfl h, highwayStart_of ht hr]
    exact congrArg _ (frameStart_of_seal
      (s := { s with timer := { s.timer with timing := .running .startDue, request := .none } }) hs ho he)
  · rw [exec_of_ready rfl h, highwayStart_of ht hr]
    exact (exec_frameStart_due (s := { s with timer := { s.timer with timing := .running .startDue, request := .none } })
      h rfl).symm

/-- Settles O8. -/
theorem slotsFollowInOrder : Obligations.SlotsFollowInOrder := by
  refine ⟨fun c n _ h47 hlast => ?_, fun c => ⟨rfl, ?_⟩, ⟨rfl, rfl, rfl⟩, fun n => rfl,
    fun s h ht => ⟨fun act w => ?_, ?_, ?_, ?_⟩, fun s act w h => ⟨fun ht => ?_, fun ht => ?_, fun k hk => ?_⟩⟩
  · rw [LengthCode.placeAfter, if_neg h47, if_neg hlast]
  · cases c <;> rfl
  · rw [exec_slotEvent h, slotEvent_of_stopped ht]
  · rw [exec_arbitration h, arbitrateIfDue_of_not_due (by rw [ht]; nofun)]
  · rw [exec_frameEnd h, endIfDue_of_not_due (fun k hk => nomatch ht.symm.trans hk)]
  · rw [exec_of_ready rfl h, leaseTick_of_stopped ht]
  · refine ⟨_, exec_frameStart h, ?_⟩
    rw [exec_slotEvent h, exec_slotEvent (frameKept_ready.startIfDue (frameKept_ready.endIfDue h)),
      slotEvent_congr (reachSlot_startDue ht)]
  · refine ⟨_, exec_arbitration h, ?_⟩
    rw [exec_slotEvent h, exec_slotEvent (frameKept_ready.arbitrateIfDue h), slotEvent_congr (reachSlot_arbitrationDue ht)]
  · refine ⟨_, exec_frameEnd h, ?_⟩
    rw [exec_slotEvent h, exec_slotEvent (frameKept_ready.endIfDue h), slotEvent_congr (reachSlot_endIfDue s)]

/-- Settles O10. -/
theorem frameEndCountsDown : Obligations.FrameEndCountsDown := by
  refine ⟨fun s p h he hno hw hm => ?_, fun s p h ht => ?_, fun s h hno => ?_, fun s h hno => ?_⟩
  · refine ⟨_, exec_frameEnd h, ?_⟩
    rw [endIfDue_of_endDue he, frameEnd_of_no_tick he hno]
    refine ⟨rfl, fun hp => ?_, fun hp => ?_, fun hp => ?_, fun hp => ?_, rfl⟩
    · rw [hp]
      exact taintDecays_decayTaint hw
    · rw [hp]
      rfl
    · rw [hp]
      exact noticesCountDown_countDownNotices hm
    · rw [hp]
      rfl
  · obtain ⟨htick, hrest⟩ := frameEnd_of_tick ht
    have hready : (s.tick.goTo (.endDue { p with leases := true })).ready :=
      frameKept_ready.goTo _ (frameKept_ready.tick h)
    have hdue : (s.tick.goTo (.endDue { p with leases := true })).endIsDue { p with leases := true } := rfl
    refine ⟨_, (exec_of_ready rfl h).trans (congrArg _ htick), hready, hdue, ?_⟩
    rw [exec_frameEnd hready, endIfDue_of_endDue hdue, hrest, exec_frameEnd h,
      endIfDue_of_endDue ht.1]
  · rw [exec_of_ready rfl h, leaseTick_of_not_due hno]
  · rw [exec_frameEnd h, endIfDue_of_not_due hno]

end Sys2Proof.Proofs
end

section
/-! The output pins (O9; R9, R13, R15, R59, R147, R178, R186 to R190). -/

namespace Sys2Proof.Machine

variable {s : State} {n : Nat}

theorem currentSlot_of_inSlot (h : s.inSlot n) : s.timer.currentSlot = some n := by
  unfold Timer.currentSlot
  rw [h]

theorem currentSlot_of_stopped (h : s.timer.timing = .stopped) : s.timer.currentSlot = none := by
  unfold Timer.currentSlot
  rw [h]

/-! ## HSD (R13, R147) -/

theorem slotClass_downlink (hlow : 48 ≤ n) (hhigh : n ≤ 63) : slotClass n = .downlink := by
  unfold slotClass
  rw [if_neg (by omega), if_neg (by omega), if_pos hhigh]

theorem slotClass_payload (h : 64 ≤ n) : slotClass n = .payload := by
  unfold slotClass
  rw [if_neg (by omega), if_neg (by omega), if_neg (by omega)]

theorem slotClass_uplink (h1 : 1 ≤ n) (h47 : n ≤ 47) : slotClass n = .uplink := slotClass_uplink_iff.2 ⟨h1, h47⟩

theorem slotClass_ne_payload (h : n ≤ 63) : slotClass n ≠ .payload := by
  unfold slotClass
  split_ifs
  all_goals nofun

theorem fillerWord_eq : fillerWord = 0x80000000 := by decide

/-- The fields of a sync word: the frame number, the length code, zeros, and odd parity. -/
theorem syncWord_fields (c : LengthCode) (fn : BitVec 16) : (syncWord c fn).extractLsb' 0 16 = fn
    ∧ (syncWord c fn).extractLsb' 16 2 = c.bits ∧ (syncWord c fn).extractLsb' 18 13 = 0 ∧ oddOnes (syncWord c fn) = true := by
  refine ⟨?_, ?_, ?_, oddOnes_withParity _⟩
  · simp [syncWord, withParity]
  · simp [syncWord, withParity]
  · simp [syncWord, withParity]

theorem hsdWord_sync (h : s.inSlot 0) : s.hsdWord = some (syncWord s.timer.code s.timer.fn) := by
  unfold State.hsdWord
  rw [currentSlot_of_inSlot h]
  rfl

theorem hsdWord_downlink (h : s.inSlot n) (hlow : 48 ≤ n) (hhigh : n ≤ 63) :
    s.hsdWord = some (s.downlink.getD (n - 48) fillerWord) := by
  unfold State.hsdWord
  rw [currentSlot_of_inSlot h]
  dsimp only
  rw [slotClass_downlink hlow hhigh]

theorem hsdWord_released (h : s.inSlot n) (hn : (1 ≤ n ∧ n ≤ 47) ∨ 64 ≤ n) : s.hsdWord = none := by
  unfold State.hsdWord
  rw [currentSlot_of_inSlot h]
  dsimp only
  rcases hn with ⟨h1, h47⟩ | hn
  · rw [slotClass_uplink h1 h47]
  · rw [slotClass_payload hn]

/-! ## TALK (R15) -/

theorem talk_of_inSlot (h : s.inSlot n) :
    s.talk = if slotClass n = .payload then talkCode (s.activeAt n) else 0xFF := by
  unfold State.talk
  rw [currentSlot_of_inSlot h]

theorem talk_of_overhead (h : s.inSlot n) (hn : n ≤ 63) : s.talk = 0xFF := by
  rw [talk_of_inSlot h, if_neg (slotClass_ne_payload hn)]

theorem talk_of_payload (h : s.inSlot n) (hn : 64 ≤ n) : s.talk = talkCode (s.activeAt n) := by
  rw [talk_of_inSlot h, if_pos (slotClass_payload hn)]

/-! ## HFS, RDYn and D (R9, R178, R187, R188) -/

theorem hfs_of_inSlot (h : s.inSlot n) (b : Nat) : s.hfs b = true ↔ n = 0 ∧ b = 0 := by
  unfold State.hfs
  rw [currentSlot_of_inSlot h]
  simp

theorem rdyn_dead {csn : Bool} (h : s.inReset = true ∨ csn = true) (rdn wrn : Bool) (x : Sampled) :
    s.rdyn csn rdn wrn x = none ∧ s.dataDriven csn rdn x = false := by
  have hdead : (s.inReset || csn) = true := by rw [Bool.or_eq_true]; exact h
  refine ⟨?_, ?_⟩
  · unfold State.rdyn
    exact if_pos hdead
  · rcases h with h | h <;> simp [State.dataDriven, h]

/-- RDYn of a selected part that is not in reset: of no access sampled, of a read, of a write. -/
theorem rdyn_live (h : s.inReset = false) (rdn wrn : Bool) :
    s.rdyn false rdn wrn .none = (if !rdn && !wrn then none else some true)
      ∧ s.rdyn false rdn wrn .read = some rdn ∧ s.rdyn false rdn wrn .write = some wrn := by
  unfold State.rdyn
  rw [h]
  exact ⟨rfl, rfl, rfl⟩

end Sys2Proof.Machine

namespace Sys2Proof.Proofs

open Sys2Proof.Machine

/-- Settles O9. -/
theorem outputPins : Obligations.OutputPins := by
  refine ⟨fun s ht => ⟨fun b => ⟨?_, ?_⟩, ?_⟩, fun s n h => ⟨hfs_of_inSlot h, fun b => rfl, fun hn => ?_, fun hlow hhigh => ?_,
    fun hn => ?_, talk_of_overhead h, fun hn ha => ?_, fun i hn ha hi => ?_⟩, fun s h => ?_,
    fun s => ⟨fun csn rdn wrn x hd => rdyn_dead hd rdn wrn x, fun h => ⟨?_, fun rdn wrn hl => ?_, fun rdn wrn => ⟨?_, ?_⟩,
      fun rdn x => ?_⟩⟩⟩
  · rw [State.hfs, currentSlot_of_stopped ht]
    rfl
  · rw [State.hsd, State.hsdWord, currentSlot_of_stopped ht]
    rfl
  · rw [State.talk, currentSlot_of_stopped ht]
  · subst hn
    exact ⟨_, hsdWord_sync h, syncWord_fields _ _⟩
  · rw [hsdWord_downlink h hlow hhigh, fillerWord_eq]
  · exact hsdWord_released h hn
  · rw [talk_of_payload h hn, ha]
    rfl
  · rw [talk_of_payload h hn, ha, talkCode, BitVec.toNat_ofNat, Nat.mod_eq_of_lt (by omega)]
  · rw [State.irqn, State.irqn, catchUp_catchUp, h, inReset_catchUp, h]
  · exact (rdyn_live h false false).1
  · refine (rdyn_live h rdn wrn).1.trans (if_neg ?_)
    rcases hl with rfl | rfl <;> simp
  · exact (rdyn_live h rdn wrn).2.1
  · exact (rdyn_live h rdn wrn).2.2
  · simp [State.dataDriven, h]

end Sys2Proof.Proofs
end

section
/-! What the completion of a claim leaves of the records, of the Free Record Queue, of the stations and of their mailboxes
(R24 to R26, R44, R108). -/

namespace Sys2Proof.Machine

variable {s : State}

/-! ## Re-deriving many records (R24) -/

theorem rederives_eq (l : List Nat) (s : State) :
    l.foldl (fun s i => s.rederive i) s = { s with grants := (l.foldl (fun s i => s.rederive i) s).grants } := by
  induction l generalizing s with
  | nil => rfl
  | cons i l ih =>
    rw [List.foldl_cons, ih, rederive_eq]

theorem derived_rederives (l : List Nat) (s : State) (j : Nat) :
    (l.foldl (fun s i => s.rederive i) s).derived j = s.derived j := by
  induction l generalizing s with
  | nil => rfl
  | cons i l ih => rw [List.foldl_cons, ih, derived_rederive]

theorem grant_rederives (l : List Nat) (s : State) (j : Nat) : (l.foldl (fun s i => s.rederive i) s).grant j =
    if j ∈ l ∧ (s.grant j).state ≠ .free ∧ s.derived j ≠ .free then { s.grant j with state := s.derived j }
    else s.grant j := by
  induction l generalizing s with
  | nil => simp
  | cons i l ih =>
    rw [List.foldl_cons, ih, derived_rederive, grant_rederive]
    by_cases hj : j = i
    · subst hj
      by_cases h : (s.grant j).state ≠ .free ∧ s.derived j ≠ .free
      · simp [h]
      · simp [h]
    · simp [hj]

/-! ## Freeing many records (R25, R26) -/

/-- Record `i` is in use and meets the freeing test (R25). -/
def State.freesDue (s : State) (i : Nat) : Bool := (s.grant i).state != .free && s.derived i == .free

theorem freesDue_iff {i : Nat} : s.freesDue i = true ↔ (s.grant i).state ≠ .free ∧ s.derived i = .free := by
  simp [State.freesDue]

theorem freeIfDue_eq (i : Nat) (s : State) : s.freeIfDue i = if s.freesDue i then s.freeRecord i else s := by
  unfold State.freeIfDue
  exact if_congr freesDue_iff.symm rfl rfl

theorem freesDue_freeRecord_other {i j : Nat} (hj : j ≠ i) : (s.freeRecord i).freesDue j = s.freesDue j := by
  unfold State.freesDue
  rw [derived_freeRecord_other hj, grant_freeRecord, if_neg hj]

theorem freesDue_freeIfDue_other {i j : Nat} (hj : j ≠ i) : (s.freeIfDue i).freesDue j = s.freesDue j := by
  rw [freeIfDue_eq]
  split
  · exact freesDue_freeRecord_other hj
  · rfl

theorem filter_freesDue_freeIfDue {i : Nat} {l : List Nat} (hi : i ∉ l) :
    l.filter (s.freeIfDue i).freesDue = l.filter s.freesDue :=
  List.filter_congr (fun _ hj => freesDue_freeIfDue_other (fun h => hi (h ▸ hj)))

theorem grant_frees {l : List Nat} (hd : l.Nodup) (s : State) (j : Nat) : (l.foldl (fun s i => s.freeIfDue i) s).grant j =
    if j ∈ l ∧ s.freesDue j = true then Grant.freeWith ((s.grant j).generation + 1) else s.grant j := by
  induction l generalizing s with
  | nil => simp
  | cons i l ih =>
    obtain ⟨hi, hl⟩ := List.nodup_cons.1 hd
    rw [List.foldl_cons, ih hl]
    by_cases hj : j = i
    · subst hj
      rw [if_neg (fun h => hi h.1), freeIfDue_eq]
      by_cases h : s.freesDue j = true
      · rw [if_pos h, grant_freeRecord, if_pos rfl, if_pos ⟨List.mem_cons_self, h⟩]
      · rw [if_neg h, if_neg (fun k => h k.2)]
    · have hgrant : (s.freeIfDue i).grant j = s.grant j := by
        rw [freeIfDue_eq]
        split
        · rw [grant_freeRecord, if_neg hj]
        · rfl
      rw [freesDue_freeIfDue_other hj, hgrant]
      simp [hj]

theorem freeQueue_frees {l : List Nat} (hd : l.Nodup) (s : State) :
    (l.foldl (fun s i => s.freeIfDue i) s).freeQueue = s.freeQueue ++ l.filter s.freesDue := by
  induction l generalizing s with
  | nil => simp
  | cons i l ih =>
    obtain ⟨hi, hl⟩ := List.nodup_cons.1 hd
    rw [List.foldl_cons, ih hl, filter_freesDue_freeIfDue hi, freeIfDue_eq, List.filter_cons]
    split
    · rw [freeQueue_freeRecord, List.append_assoc]
      rfl
    · rfl

/-! ## The stations of the records freed (R30, R107, R108) -/

/-- A station that comes to hold one record fewer; LEAVING with the last, it departs. -/
def Station.released (r : Station) : Station :=
  if r.state = .leaving ∧ r.held - 1 = 0 then
    { r with held := r.held - 1, suspended := false, missed := 0, state := .absent }
  else { r with held := r.held - 1 }

theorem station_departIfDone (s : State) (a b : Nat) : (s.departIfDone a).station b =
    if b = a ∧ (s.station a).state = .leaving ∧ (s.station a).held = 0 then
      { s.station a with suspended := false, missed := 0, state := .absent }
    else s.station b := by
  unfold State.departIfDone
  by_cases h : (s.station a).state = .leaving ∧ (s.station a).held = 0
  · rw [if_pos h]
    unfold State.enterAbsent
    rw [station_moveStation, State.station_updStation, State.station_updStation, if_pos rfl]
    by_cases hb : b = a
    · rw [if_pos hb, if_pos ⟨hb, h⟩]
      rfl
    · rw [if_neg hb, if_neg hb, if_neg (fun k => hb k.1)]
      rfl
  · rw [if_neg h, if_neg (fun k => h k.2)]

theorem station_holdOneFewer (s : State) (o : Option Nat) (a : Nat) : (s.holdOneFewer o).station a =
    if o = some a then (s.station a).released else s.station a := by
  cases o with
  | none => rfl
  | some b =>
    unfold State.holdOneFewer
    rw [station_departIfDone, State.station_updStation_same, State.station_updStation]
    by_cases hb : b = a
    · subst hb
      unfold Station.released
      simp
    · have hba : a ≠ b := fun h => hb h.symm
      simp [hb, hba]

theorem station_freeRecord (s : State) (i a : Nat) : (s.freeRecord i).station a =
    if (s.grant i).owner = some a then (s.station a).released else s.station a := by
  unfold State.freeRecord
  rw [station_holdOneFewer]
  rfl

/-- The records among these that are freed and that station `a` owns. -/
def State.freedOf (a : Nat) (l : List Nat) (s : State) : Nat :=
  (l.filter s.freesDue).countP (fun i => (s.grant i).owner == some a)

theorem freedOf_freeIfDue {i : Nat} {l : List Nat} (hi : i ∉ l) (a : Nat) :
    (s.freeIfDue i).freedOf a l = s.freedOf a l := by
  unfold State.freedOf
  rw [filter_freesDue_freeIfDue hi]
  refine List.countP_congr (fun j hj => ?_)
  have hji : j ≠ i := fun h => hi (h ▸ (List.mem_filter.1 hj).1)
  rw [freeIfDue_eq]
  split
  · rw [grant_freeRecord, if_neg hji]
  · rfl

theorem station_frees {l : List Nat} (hd : l.Nodup) (s : State) (a : Nat) :
    (l.foldl (fun s i => s.freeIfDue i) s).station a = Station.released^[s.freedOf a l] (s.station a) := by
  induction l generalizing s with
  | nil => rfl
  | cons i l ih =>
    obtain ⟨hi, hl⟩ := List.nodup_cons.1 hd
    rw [List.foldl_cons, ih hl]
    rw [freedOf_freeIfDue hi]
    unfold State.freedOf
    rw [freeIfDue_eq, List.filter_cons]
    split
    · rw [station_freeRecord, List.countP_cons]
      by_cases ho : (s.grant i).owner = some a
      · simp [ho]
      · simp [ho]
    · rfl

/-- What comes of a station that is told of `k` records fewer. -/
theorem released_iterate (k : Nat) (r : Station) :
    (r.state ≠ .leaving ∨ k = 0 ∨ k < r.held → Station.released^[k] r = { r with held := r.held - k })
      ∧ (Station.released^[k] r).held = r.held - k
      ∧ (r.state = .leaving → k ≠ 0 → r.held ≤ k → (Station.released^[k] r).state = .absent) := by
  induction k generalizing r with
  | zero => exact ⟨fun _ => rfl, rfl, fun _ h => absurd rfl h⟩
  | succ k ih =>
    rw [Function.iterate_succ_apply]
    by_cases h : r.state = .leaving ∧ r.held - 1 = 0
    · have hr : r.released = { r with held := r.held - 1, suspended := false, missed := 0, state := .absent } := if_pos h
      obtain ⟨hsame, hheld, -⟩ := ih r.released
      have hgone := hsame (.inl (by rw [hr]; nofun))
      refine ⟨fun hc => absurd hc ?_, ?_, fun _ _ _ => ?_⟩
      · rintro (hc | hc | hc)
        · exact hc h.1
        · omega
        · omega
      · rw [hheld, hr]
        dsimp only
        omega
      · rw [hgone, hr]
    · have hr : r.released = { r with held := r.held - 1 } := if_neg h
      obtain ⟨hsame, hheld, hgone⟩ := ih r.released
      rw [hr] at hsame hheld hgone ⊢
      dsimp only at hsame hheld hgone
      refine ⟨fun hc => ?_, ?_, fun hl _ hk => ?_⟩
      · rw [hsame (hc.imp_right (fun hk => by omega)), Nat.sub_sub, Nat.add_comm 1 k]
      · rw [hheld]
        omega
      · exact hgone hl (by rintro rfl; exact h ⟨hl, by omega⟩) (by omega)

/-! ## The completion (R44) -/

theorem freesDue_rederives (l : List Nat) (j : Nat) :
    (l.foldl (fun s i => s.rederive i) s).freesDue j = s.freesDue j := by
  rw [Bool.eq_iff_iff, freesDue_iff, freesDue_iff, derived_rederives]
  refine and_congr_left (fun hd => ?_)
  rw [grant_rederives, if_neg (fun h => h.2.2 hd)]

theorem owner_rederives (l : List Nat) (j : Nat) :
    ((l.foldl (fun s i => s.rederive i) s).grant j).owner = (s.grant j).owner := by
  rw [grant_rederives]
  split <;> rfl

theorem freedOf_rederives (l k : List Nat) (a : Nat) :
    (l.foldl (fun s i => s.rederive i) s).freedOf a k = s.freedOf a k := by
  unfold State.freedOf
  rw [List.filter_congr (fun j _ => freesDue_rederives _ j)]
  refine List.countP_congr (fun j _ => ?_)
  rw [owner_rederives]

theorem nodup_touchedIds (touched : List Nat) : (touchedIds touched).Nodup := List.nodup_range.filter _

/-- A record touched and in use is freed with the next generation, or stands in its derived state. -/
theorem grant_complete (touched : List Nat) (s : State) (j : Nat) : (s.complete touched).grant j =
    if j ∈ touchedIds touched ∧ (s.grant j).state ≠ .free then
      if s.derived j = .free then Grant.freeWith ((s.grant j).generation + 1) else { s.grant j with state := s.derived j }
    else s.grant j := by
  rw [complete_eq, grant_frees (nodup_touchedIds _), freesDue_rederives, grant_rederives]
  by_cases h : j ∈ touchedIds touched ∧ (s.grant j).state ≠ .free
  · rw [if_pos h]
    by_cases hd : s.derived j = .free
    · rw [if_pos hd, if_pos ⟨h.1, freesDue_iff.2 ⟨h.2, hd⟩⟩, if_neg (fun k => k.2.2 hd)]
    · rw [if_neg hd, if_neg (fun k => hd (freesDue_iff.1 k.2).2), if_pos ⟨h.1, h.2, hd⟩]
  · rw [if_neg h, if_neg (fun k => h ⟨k.1, (freesDue_iff.1 k.2).1⟩), if_neg (fun k => h ⟨k.1, k.2.1⟩)]

theorem grant_complete_other {touched : List Nat} {j : Nat} (hj : j ∉ touched) :
    (s.complete touched).grant j = s.grant j := by
  rw [grant_complete, if_neg (fun h => hj (mem_touchedIds.1 h.1).2)]

theorem freeQueue_complete (touched : List Nat) (s : State) :
    (s.complete touched).freeQueue = s.freeQueue ++ (touchedIds touched).filter s.freesDue := by
  rw [complete_eq, freeQueue_frees (nodup_touchedIds _), List.filter_congr (fun j _ => freesDue_rederives _ j),
    rederives_eq]

theorem station_complete (touched : List Nat) (s : State) (a : Nat) :
    (s.complete touched).station a = Station.released^[s.freedOf a (touchedIds touched)] (s.station a) := by
  rw [complete_eq, station_frees (nodup_touchedIds _)]
  rw [freedOf_rederives, State.station_congr (s := s) (by rw [rederives_eq])]

/-! ## What a claim may touch -/

/-- `t` is `s` but for the records, the Free Record Queue, the Slot Map, the stations, the mailboxes and the flags. -/
def ClaimOnly (s t : State) : Prop :=
  t = { s with grants := t.grants, freeQueue := t.freeQueue, map := t.map, stations := t.stations
               mailboxes := t.mailboxes, ints := t.ints }

theorem ClaimOnly.refl (s : State) : ClaimOnly s s := rfl

theorem ClaimOnly.trans {t u : State} (h : ClaimOnly s t) (k : ClaimOnly t u) : ClaimOnly s u := by
  unfold ClaimOnly at *
  rw [k, h]

theorem ClaimOnly.foldl {α : Type} {f : State → α → State} (h : ∀ s x, ClaimOnly s (f s x)) (l : List α) (s : State) :
    ClaimOnly s (l.foldl f s) := by
  induction l generalizing s with
  | nil => exact .refl s
  | cons x l ih => exact (h s x).trans (ih _)

theorem ClaimOnly.of_planOnly {t : State} (h : PlanOnly s t) : ClaimOnly s t := by
  unfold PlanOnly at h
  unfold ClaimOnly
  rw [h]

section
variable {t : State} (h : ClaimOnly s t)
include h
theorem ClaimOnly.timer : t.timer = s.timer := by rw [h]
theorem ClaimOnly.cfg : t.cfg = s.cfg := by rw [h]
theorem ClaimOnly.commitCounter : t.commitCounter = s.commitCounter := by rw [h]
theorem ClaimOnly.engine : t.engine = s.engine := by rw [h]
theorem ClaimOnly.asks : t.asks = s.asks := by rw [h]
theorem ClaimOnly.askQueue : t.askQueue = s.askQueue := by rw [h]
theorem ClaimOnly.port : t.port = s.port := by rw [h]
theorem ClaimOnly.downlink : t.downlink = s.downlink := by rw [h]
theorem ClaimOnly.intrusions : t.intrusions = s.intrusions := by rw [h]
theorem ClaimOnly.arbiterPointer : t.arbiterPointer = s.arbiterPointer := by rw [h]
theorem ClaimOnly.payload : t.payload = s.payload := by unfold State.payload; rw [h.timer]
theorem ClaimOnly.ask (a : Nat) : t.ask a = s.ask a := State.ask_congr h.asks a
end

theorem claimOnly_updGrant (i : Nat) (f : Grant → Grant) : ClaimOnly s (s.updGrant i f) := rfl

theorem claimOnly_updStation (a : Nat) (f : Station → Station) : ClaimOnly s (s.updStation a f) := rfl

theorem claimOnly_moveStation (a : Nat) (st : StationState) : ClaimOnly s (s.moveStation a st) := rfl

theorem claimOnly_emptyQueue (a : Nat) : ClaimOnly s (s.emptyQueue a) := rfl

theorem claimOnly_raise (f : Flag) : ClaimOnly s (s.raise f) := rfl

theorem claimOnly_departIfDone (a : Nat) : ClaimOnly s (s.departIfDone a) := by
  unfold State.departIfDone
  split <;> rfl

theorem claimOnly_holdOneFewer (o : Option Nat) : ClaimOnly s (s.holdOneFewer o) := by
  cases o with
  | none => exact .refl s
  | some a => exact (claimOnly_updStation a (fun r => { r with held := r.held - 1 })).trans (claimOnly_departIfDone a)

theorem claimOnly_freeIfDue (i : Nat) : ClaimOnly s (s.freeIfDue i) := by
  unfold State.freeIfDue
  split
  · have hgrant : ClaimOnly s
        { s.updGrant i (fun g => Grant.freeWith (g.generation + 1)) with freeQueue := s.freeQueue ++ [i] } := rfl
    exact hgrant.trans (claimOnly_holdOneFewer _)
  · exact .refl s

theorem claimOnly_rederive (i : Nat) : ClaimOnly s (s.rederive i) := by
  unfold ClaimOnly
  rw [rederive_eq]

theorem claimOnly_complete (touched : List Nat) : ClaimOnly s (s.complete touched) := by
  rw [complete_eq]
  exact (ClaimOnly.foldl (fun _ i => claimOnly_rederive i) _ _).trans (ClaimOnly.foldl (fun _ i => claimOnly_freeIfDue i) _ _)

theorem claimOnly_handNotice (a : Nat) (n : Notice) : ClaimOnly s (s.handNotice a n) := by
  unfold State.handNotice
  split
  · split <;> rfl
  · rfl

theorem claimOnly_noticeRevoked (why : Option RevokeReason) (o : Option Nat) (h : Handle) (i : Nat) :
    ClaimOnly s (s.noticeRevoked why o h i) := by
  unfold ClaimOnly
  rw [noticeRevoked_eq]

theorem claimOnly_clearPlan (i : Nat) : ClaimOnly s (s.clearPlan i) := .of_planOnly (planOnly_clearPlan s i)

/-! ## The mailboxes of the stations that depart (R107, R109) -/

theorem mailbox_departIfDone (s : State) (a b : Nat) : (s.departIfDone a).mailbox b =
    if b = a ∧ (s.station a).state = .leaving ∧ (s.station a).held = 0 then (s.mailbox a).emptied else s.mailbox b := by
  unfold State.departIfDone
  by_cases h : (s.station a).state = .leaving ∧ (s.station a).held = 0
  · rw [if_pos h]
    have hempty : (s.enterAbsent a).mailbox b = (s.emptyQueue a).mailbox b := rfl
    rw [hempty, State.emptyQueue, State.mailbox_updMailbox]
    by_cases hb : b = a
    · rw [if_pos hb, if_pos ⟨hb, h⟩]
    · rw [if_neg hb, if_neg (fun k => hb k.1)]
  · rw [if_neg h, if_neg (fun k => h k.2)]

theorem mailbox_freeRecord (s : State) (i a : Nat) : (s.freeRecord i).mailbox a = s.mailbox a
    ∨ ((s.grant i).owner = some a ∧ (s.station a).state = .leaving ∧ (s.freeRecord i).mailbox a = (s.mailbox a).emptied) := by
  unfold State.freeRecord
  cases ho : (s.grant i).owner with
  | none => exact .inl rfl
  | some b =>
    unfold State.holdOneFewer
    dsimp only
    rw [mailbox_departIfDone]
    split
    · rename_i h
      obtain ⟨rfl, hl, -⟩ := h
      rw [State.station_updStation_same] at hl
      exact .inr ⟨rfl, hl, rfl⟩
    · exact .inl rfl

theorem leaving_of_released {r : Station} (h : r.released.state = .leaving) : r.state = .leaving := by
  unfold Station.released at h
  split at h
  · exact absurd h nofun
  · exact h

/-- A mailbox stays, unless the station is LEAVING and a record that it owns is freed. -/
theorem mailbox_frees {l : List Nat} (hd : l.Nodup) (s : State) (a : Nat) :
    (l.foldl (fun s i => s.freeIfDue i) s).mailbox a = s.mailbox a
      ∨ (s.freedOf a l ≠ 0 ∧ (s.station a).state = .leaving
          ∧ (l.foldl (fun s i => s.freeIfDue i) s).mailbox a = (s.mailbox a).emptied) := by
  induction l generalizing s with
  | nil => exact .inl rfl
  | cons i l ih =>
    obtain ⟨hi, hl⟩ := List.nodup_cons.1 hd
    rw [List.foldl_cons]
    have hrest := freedOf_freeIfDue (s := s) hi a
    rw [freeIfDue_eq]
    by_cases h : s.freesDue i = true
    · rw [if_pos h]
      rw [freeIfDue_eq, if_pos h] at hrest
      have hcount : s.freedOf a (i :: l) = s.freedOf a l + if (s.grant i).owner = some a then 1 else 0 := by
        unfold State.freedOf
        rw [List.filter_cons, if_pos h, List.countP_cons]
        simp
      rw [hcount, ← hrest]
      rcases ih hl (s.freeRecord i) with hmb | ⟨hne, hleave, hmb⟩
      · rw [hmb]
        exact (mailbox_freeRecord s i a).imp_right (fun ⟨ho, hlv, hm⟩ => ⟨by rw [if_pos ho]; omega, hlv, hm⟩)
      · refine .inr ⟨by omega, ?_, ?_⟩
        · rw [station_freeRecord] at hleave
          split at hleave
          · exact leaving_of_released hleave
          · exact hleave
        · rw [hmb]
          rcases mailbox_freeRecord s i a with hm | ⟨-, -, hm⟩
          · rw [hm]
          · rw [hm]
            rfl
    · rw [if_neg h]
      rw [freeIfDue_eq, if_neg h] at hrest
      have hcount : s.freedOf a (i :: l) = s.freedOf a l := by
        unfold State.freedOf
        rw [List.filter_cons, if_neg h]
      rw [hcount]
      exact ih hl s

theorem mailbox_complete (touched : List Nat) (s : State) (a : Nat) : (s.complete touched).mailbox a = s.mailbox a
    ∨ (s.freedOf a (touchedIds touched) ≠ 0 ∧ (s.station a).state = .leaving
        ∧ (s.complete touched).mailbox a = (s.mailbox a).emptied) := by
  have hsame : ((touchedIds touched).foldl (fun s i => s.rederive i) s).mailbox a = s.mailbox a :=
    State.mailbox_congr (by rw [rederives_eq]) a
  have hst : ((touchedIds touched).foldl (fun s i => s.rederive i) s).station a = s.station a :=
    State.station_congr (by rw [rederives_eq]) a
  rw [complete_eq]
  rcases mailbox_frees (nodup_touchedIds touched) ((touchedIds touched).foldl (fun s i => s.rederive i) s) a with h | h
  · exact .inl (h.trans hsame)
  · rw [freedOf_rederives, hst, hsame] at h
    exact .inr h

/-- A station that owns none of the records touched is not told of the completion. -/
theorem freedOf_eq_zero {a : Nat} {l : List Nat} (h : ∀ i ∈ l, (s.grant i).owner ≠ some a) : s.freedOf a l = 0 := by
  unfold State.freedOf
  rw [List.countP_eq_zero]
  intro i hi
  have hne := h i (List.mem_filter.1 hi).1
  simpa using hne

theorem station_complete_other {touched : List Nat} {a : Nat} (h : ∀ i ∈ touched, (s.grant i).owner ≠ some a) :
    (s.complete touched).station a = s.station a ∧ (s.complete touched).mailbox a = s.mailbox a := by
  have hzero := freedOf_eq_zero (fun i hi => h i (mem_touchedIds.1 hi).2)
  refine ⟨?_, ?_⟩
  · rw [station_complete, hzero]
    rfl
  · rcases mailbox_complete touched s a with hm | ⟨hne, -⟩
    · exact hm
    · exact absurd hzero hne

end Sys2Proof.Machine
end

section
/-! The swap at a frame start: what it leaves of the maps, of the records, of the Free Record Queue and of the stations (O7;
R19, R25, R26, R49, R108). -/

namespace Sys2Proof.Machine

variable {s : State} {e : Epoch}

theorem swapIfDue_of {e : Epoch} (he : s.map.sealedEpoch = some e) (hf : e.effective = s.timer.fn) :
    s.swapIfDue = s.swap e := by
  unfold State.swapIfDue
  rw [he]
  exact if_pos hf

theorem Epoch.names_iff_mem {e : Epoch} (hw : e.changes.wf none = true) {i : Nat} :
    e.names i = true ↔ i ∈ namedIn e.changes := (Epoch.names_iff hw).trans (mem_namedIn_iff hw).symm

/-- The records that a completion frees. -/
theorem freed_by_complete (touched : List Nat) (s : State) :
    (List.range Config.grantCount).filter
        (fun i => (s.grant i).state != .free && ((s.complete touched).grant i).state == .free)
      = (touchedIds touched).filter s.freesDue := by
  unfold touchedIds
  rw [List.filter_filter]
  refine List.filter_congr (fun i hi => ?_)
  rw [Bool.eq_iff_iff, Bool.and_eq_true, Bool.and_eq_true, bne_iff_ne, beq_iff_eq, freesDue_iff, grant_complete,
    List.contains_iff_mem]
  have hmem : i ∈ touchedIds touched ↔ i ∈ touched := mem_touchedIds.trans (and_iff_right (List.mem_range.1 hi))
  by_cases hs : (s.grant i).state = .free
  · simp [hs]
  · by_cases ht : i ∈ touched
    · by_cases hd : s.derived i = .free
      · simp [hs, ht, hmem, hd, Grant.freeWith]
      · simp [hs, ht, hmem, hd]
    · simp [hs, ht, hmem]

/-- What a change list does to the records (R19, R49). -/
theorem grant_countChanges_unnamed {l : List (Nat × Change)} {i : Nat} (h : ∀ c ∈ l, c.2.names i = false) :
    (s.countChanges l).grant i = s.grant i := by
  induction l generalizing s with
  | nil => rfl
  | cons c l ih =>
    have hc : ¬ (c.2.fromOwner = some i ∨ c.2.toOwner = some i) := fun k => by
      have := h c (by simp)
      rw [Change.names_iff.2 k] at this
      nomatch this
    rw [not_or] at hc
    have hcons : s.countChanges (c :: l) = ((s.activeCountDown c.2.fromOwner).activeCountUp c.2.toOwner).countChanges l := rfl
    rw [hcons, ih (fun d hd => h d (by simp [hd])), grant_activeCountUp, if_neg hc.2, grant_activeCountDown, if_neg hc.1]

/-- The state after a swap has counted the changes of its list, before its completion. -/
def State.swapped (e : Epoch) (s : State) : State := (s.updMap (SlotMap.swapIn e)).countChanges (changesOf e.changes)

theorem swap_eq_complete (e : Epoch) (s : State) :
    s.swap e = ((s.swapped e).complete (namedIn e.changes)).raise .epoch := rfl

theorem swapped_eq (e : Epoch) (s : State) :
    s.swapped e = { s with map := s.map.swapIn e, grants := (s.swapped e).grants } :=
  (grantsOnly_countChanges _ _).1

/-- A change list that R40 allows: each change is of a payload slot, from the owner that ACTIVE gives it. -/
def State.swapsFrom (e : Epoch) (s : State) : Prop :=
  e.changes.wf none = true ∧ ∀ n c, e.changes.get none n = some c → n ∈ s.payload ∧ c.fromOwner = s.activeAt n

theorem grant_swapped_unnamed (h : s.swapsFrom e) {i : Nat} (hi : e.names i = false) :
    (s.swapped e).grant i = s.grant i := by
  refine grant_countChanges_unnamed (fun c hc => ?_)
  rw [Bool.eq_false_iff]
  intro hn
  exact Bool.false_ne_true (hi.symm.trans ((Epoch.names_iff h.1).2 ⟨c.1, c.2, (mem_changesOf_iff h.1).1 hc, hn⟩))

/-- activeCount stays the number of the record's slots (R19). -/
theorem grant_swapped (h : s.swapsFrom e) {i : Nat} (hi : (s.grant i).activeCount = (s.activeSlots i).length) :
    (s.swapped e).grant i = { s.grant i with activeCount := ((s.swapped e).activeSlots i).length } := by
  have hcount : ((s.swapped e).grant i).activeCount = slotsIn s.payload (s.map.swapIn e).active i :=
    activeCount_countChanges (nodup_payload s.timer.code) (nodup_changesOf h.1)
      (fun c hc => by
        obtain ⟨hmem, hfrom⟩ := h.2 c.1 c.2 ((mem_changesOf_iff h.1).1 hc)
        exact ⟨hfrom, .inl hmem⟩) hi
  have hbut := (grantsOnly_countChanges (changesOf e.changes) (s.updMap (SlotMap.swapIn e))).2 i
  have hslots : ((s.swapped e).activeSlots i).length = slotsIn s.payload (s.map.swapIn e).active i := by
    rw [swapped_eq]
    rfl
  rw [hslots, ← hcount]
  exact hbut

theorem owner_swapped (e : Epoch) (s : State) (i : Nat) : ((s.swapped e).grant i).owner = (s.grant i).owner := by
  have hbut := (grantsOnly_countChanges (changesOf e.changes) (s.updMap (SlotMap.swapIn e))).2 i
  have h := congrArg Grant.owner hbut
  exact h

theorem state_swapped (e : Epoch) (s : State) (i : Nat) : ((s.swapped e).grant i).state = (s.grant i).state := by
  have hbut := (grantsOnly_countChanges (changesOf e.changes) (s.updMap (SlotMap.swapIn e))).2 i
  have h := congrArg Grant.state hbut
  exact h

/-! ## The seal that follows (R50) -/

theorem sealIfDue_eq (s : State) : s.sealIfDue = { s with map := s.sealIfDue.map } := by
  unfold State.sealIfDue
  split
  · split <;> rfl
  · rfl

theorem map_sealIfDue (h : s.map.sealedEpoch = none) : s.sealIfDue.map =
    if s.map.openEpoch.any (fun o => decide (o.sealFrame = s.timer.fn)) then
      { s.map with sealedEpoch := s.map.openEpoch, openEpoch := none }
    else s.map := by
  cases ho : s.map.openEpoch with
  | none => rw [sealIfDue_of_not (by rw [ho]; nofun)]; rfl
  | some o =>
    by_cases hf : o.sealFrame = s.timer.fn
    · rw [sealIfDue_of h ho hf, if_pos (by simpa using hf), ← ho]
      rfl
    · rw [sealIfDue_of_not (fun e he => by rw [ho] at he; obtain rfl := Option.some.inj he; exact hf),
        if_neg (by simpa using hf)]

theorem pendingNames_sealIfDue (h : s.map.sealedEpoch = none) (i : Nat) :
    s.sealIfDue.map.pendingNames i = s.map.openEpoch.any (fun o => o.names i)
      ∧ s.map.pendingNames i = s.map.openEpoch.any (fun o => o.names i) := by
  refine ⟨?_, by simp [SlotMap.pendingNames, h]⟩
  rw [map_sealIfDue h]
  split
  · simp [SlotMap.pendingNames]
  · simp [SlotMap.pendingNames, h]

/-! ## The frame start of E (R9, R49) -/

theorem frameStart_of_swap (he : s.map.sealedEpoch = some e) (hf : e.effective = s.timer.fn) :
    s.frameStart = (s.swap e).sealIfDue.goTo (.slot 0) := by
  rw [State.frameStart, epochsAtStart_eq, swapIfDue_of he hf]

theorem claimOnly_swap (e : Epoch) (s : State) : ClaimOnly s (s.swap e) := by
  rw [swap_eq_complete]
  have hswapped : ClaimOnly s (s.swapped e) := by
    rw [swapped_eq]
    rfl
  exact (hswapped.trans (claimOnly_complete _)).trans (claimOnly_raise _)

theorem map_swap (e : Epoch) (s : State) : (s.swap e).map = s.map.swapIn e := by
  have hc : (s.swap e).map = ((s.swapped e).complete (namedIn e.changes)).map := rfl
  rw [hc, map_complete, swapped_eq]

theorem grant_swap (e : Epoch) (s : State) (i : Nat) :
    (s.swap e).grant i = ((s.swapped e).complete (namedIn e.changes)).grant i := rfl

theorem station_swap (e : Epoch) (s : State) (a : Nat) :
    (s.swap e).station a = ((s.swapped e).complete (namedIn e.changes)).station a := rfl

theorem freeQueue_swap (e : Epoch) (s : State) :
    (s.swap e).freeQueue = ((s.swapped e).complete (namedIn e.changes)).freeQueue := rfl

theorem pendingNames_swapped (e : Epoch) (s : State) (i : Nat) :
    (s.swapped e).map.pendingNames i = s.map.openEpoch.any (fun o => o.names i) := by
  rw [swapped_eq]
  exact Bool.or_false _

/-- What a swap makes of a record that its list names (R23 to R26, R49). -/
theorem grant_swap_named (h : s.swapsFrom e) {i : Nat} (hlt : i < Config.grantCount) (hi : e.names i = true)
    (hfree : (s.grant i).state ≠ .free) (hplacing : (s.grant i).state ≠ .placing)
    (hcount : (s.grant i).activeCount = (s.activeSlots i).length) :
    (s.swap e).grant i = if (s.grant i).planCount = 0 ∧ (s.swapped e).activeSlots i = []
        ∧ s.map.openEpoch.any (fun o => o.names i) = false then Grant.freeWith ((s.grant i).generation + 1)
      else { s.grant i with state := (s.swapped e).derived i, activeCount := ((s.swapped e).activeSlots i).length } := by
  have hgrant := grant_swapped h hcount
  have hderived : (s.swapped e).derived i = .free ↔ (s.grant i).planCount = 0 ∧ (s.swapped e).activeSlots i = []
      ∧ s.map.openEpoch.any (fun o => o.names i) = false := by
    rw [derived_eq_free_iff, pendingNames_swapped, hgrant, List.length_eq_zero_iff]
    exact and_iff_right hplacing
  rw [grant_swap, grant_complete, if_pos ⟨mem_touchedIds.2 ⟨hlt, (Epoch.names_iff_mem h.1).1 hi⟩, by
    rw [state_swapped]; exact hfree⟩]
  rw [if_congr hderived rfl rfl]
  split
  · rw [hgrant]
  · rw [hgrant]

theorem grant_swap_unnamed (h : s.swapsFrom e) {i : Nat} (hi : e.names i = false) : (s.swap e).grant i = s.grant i := by
  rw [grant_swap, grant_complete_other (fun hm => Bool.false_ne_true (hi.symm.trans ((Epoch.names_iff_mem h.1).2 hm))),
    grant_swapped_unnamed h hi]

/-- The records freed by the swap. -/
def State.freedBySwap (e : Epoch) (s : State) : List Nat :=
  (List.range Config.grantCount).filter (fun i => (s.grant i).state != .free && ((s.swap e).grant i).state == .free)

theorem freedBySwap_eq (e : Epoch) (s : State) :
    s.freedBySwap e = (touchedIds (namedIn e.changes)).filter (s.swapped e).freesDue := by
  rw [← freed_by_complete]
  unfold State.freedBySwap
  refine List.filter_congr (fun i _ => ?_)
  rw [state_swapped, grant_swap]

theorem freeQueue_swap_eq (e : Epoch) (s : State) : (s.swap e).freeQueue = s.freeQueue ++ s.freedBySwap e := by
  rw [freeQueue_swap, freeQueue_complete, freedBySwap_eq]
  congr 1
  rw [swapped_eq]

theorem station_swap_eq (e : Epoch) (s : State) (a : Nat) : (s.swap e).station a =
    Station.released^[(s.freedBySwap e).countP (fun i => (s.grant i).owner == some a)] (s.station a) := by
  rw [station_swap, station_complete, freedBySwap_eq, State.freedOf]
  have hst : (s.swapped e).station a = s.station a := State.station_congr (by rw [swapped_eq]) a
  rw [hst]
  refine congrArg (fun k => Station.released^[k] (s.station a)) (List.countP_congr (fun i _ => ?_))
  rw [owner_swapped]

/-- The state that a record is derived to be in does not change with the seal (R23, R50). -/
theorem derived_frameStart (he : s.map.sealedEpoch = some e) (hf : e.effective = s.timer.fn) (h : s.swapsFrom e) {i : Nat}
    (hcount : (s.grant i).activeCount = (s.activeSlots i).length)
    (hg : s.frameStart.grant i
      = { s.grant i with state := (s.swapped e).derived i, activeCount := ((s.swapped e).activeSlots i).length }) :
    s.frameStart.derived i = (s.swapped e).derived i := by
  have hmap : s.frameStart.map = (s.swap e).sealIfDue.map := by rw [frameStart_of_swap he hf]; rfl
  have hswap := map_swap e s
  have hnone : (s.swap e).map.sealedEpoch = none := by rw [hswap]; rfl
  have hmaps : s.frameStart.map.plan = s.map.plan ∧ s.frameStart.map.active = (s.map.swapIn e).active := by
    rw [hmap, map_sealIfDue hnone, hswap]
    split <;> exact ⟨rfl, rfl⟩
  have hmaps' : (s.swapped e).map = s.map.swapIn e := by rw [swapped_eq]
  have hpayload : s.frameStart.payload = (s.swapped e).payload := by
    rw [swapped_eq, frameStart_of_swap he hf]
    unfold State.payload
    have hcode : ((s.swap e).sealIfDue.goTo (.slot 0)).timer.code = (s.swap e).sealIfDue.timer.code := rfl
    rw [hcode, sealIfDue_eq]
    exact congrArg (fun t => t.code.payload) (claimOnly_swap e s).timer
  refine State.derived_congr ?_ ?_ ?_ ?_ ?_ ?_
  · rw [hg, state_swapped]
    dsimp only
    rw [derived_eq_placing_iff, state_swapped]
  · rw [hg, grant_swapped h hcount]
  · rw [hg, grant_swapped h hcount]
  · rw [hmap, (pendingNames_sealIfDue hnone i).1, pendingNames_swapped, hswap]
    rfl
  · unfold State.planSlots State.planAt
    rw [hpayload, hmaps.1, hmaps']
    rfl
  · unfold State.activeSlots State.activeAt
    rw [hpayload, hmaps.2, hmaps']

end Sys2Proof.Machine

namespace Sys2Proof.Proofs
open Sys2Proof.Machine

/-- Settles O7: the swap is the change of the maps and counts and then a completion; the seal moves the OPEN epoch only. -/
theorem frameStartSwaps : Obligations.FrameStartSwaps := by
  unfold Obligations.FrameStartSwaps
  intro s e hready htiming he hf hwf hfrom
  have h : s.swapsFrom e := ⟨hwf, hfrom⟩
  have hstart := frameStart_of_swap he hf
  have hclaim := claimOnly_swap e s
  have hnone : (s.swap e).map.sealedEpoch = none := by rw [map_swap]; rfl
  have hmap : s.frameStart.map = if s.map.openEpoch.any (fun o => decide (o.sealFrame = s.timer.fn)) then
      { s.map.swapIn e with sealedEpoch := s.map.openEpoch, openEpoch := none } else s.map.swapIn e := by
    rw [hstart]
    refine (map_sealIfDue hnone).trans ?_
    rw [map_swap, hclaim.timer]
    rfl
  have hshape : s.frameStart = { s.swap e with timer := s.frameStart.timer, map := s.frameStart.map } := by
    rw [hstart, sealIfDue_eq]
    rfl
  have hgrant : ∀ i, s.frameStart.grant i = (s.swap e).grant i := fun i => State.grant_congr (by rw [hshape]) i
  have hactive : ∀ n, s.frameStart.activeAt n = (s.map.swapIn e).active.get none n := fun n => by
    unfold State.activeAt
    rw [hmap]
    split <;> rfl
  have hslots : ∀ i, s.frameStart.activeSlots i = (s.swapped e).activeSlots i := fun i => by
    unfold State.activeSlots State.payload
    have hcode : s.frameStart.timer.code = s.timer.code := by
      have hswap : (s.swap e).timer.code = s.timer.code := by rw [hclaim.timer]
      rw [hstart, sealIfDue_eq]
      exact hswap
    rw [hcode, swapped_eq]
    exact List.filter_congr (fun n _ => by rw [hactive]; rfl)
  refine ⟨s.frameStart, exec_frameStart_due hready htiming, fun n => ?_, ?_, ?_, ?_, ?_, fun i hi => ?_,
    fun i hlt hi hfree hplacing hcount => ?_, ?_, ?_, ?_, ?_, ?_, ?_, ?_, ?_⟩
  · rw [hactive]
    exact applied_get hwf _ n
  · rw [hmap]
    split <;> exact ⟨rfl, rfl, rfl⟩
  · rw [hmap]
    split <;> exact ⟨rfl, rfl⟩
  · rw [hshape]
    exact (Interrupts.isSet_raise _ _ _).trans (by simp)
  · rw [hshape]
    exact (Interrupts.isFresh_raise _ _ _).trans (by simp)
  · rw [hgrant, grant_swap_unnamed h hi]
  · have hsw := grant_swap_named h hlt hi hfree hplacing hcount
    rw [hslots]
    split
    · rename_i hc
      rw [hgrant, hsw, if_pos hc]
    · rename_i hc
      rw [if_neg hc, ← hgrant] at hsw
      rw [derived_frameStart he hf h hcount hsw]
      exact hsw
  · rintro freed rfl
    have hfreed : (List.range 240).filter (fun i => (s.grant i).state != .free && (s.frameStart.grant i).state == .free)
        = s.freedBySwap e := List.filter_congr (fun i _ => by rw [hgrant])
    rw [hfreed]
    refine ⟨?_, ?_⟩
    · rw [hshape]
      exact freeQueue_swap_eq e s
    · rintro a k rfl
      obtain ⟨hsame, hheld, hgone⟩ :=
        released_iterate ((s.freedBySwap e).countP (fun i => (s.grant i).owner == some a)) (s.station a)
      have hst : s.frameStart.station a = Station.released^[(s.freedBySwap e).countP
          (fun i => (s.grant i).owner == some a)] (s.station a) :=
        (State.station_congr (s := s.swap e) (by rw [hshape]) a).trans (station_swap_eq e s a)
      rw [hst]
      refine ⟨hheld, fun hk hl hz => hgone hl hk (by rw [hheld] at hz; omega), fun hc => hsame ?_⟩
      rw [hheld] at hc
      rcases hc with hk | hl | hz
      · exact .inr (.inl hk)
      · exact .inl hl
      · exact .inr (.inr (by omega))
  · rw [hstart, sealIfDue_eq]
    exact congrArg (fun t : Timer => { t with timing := .running (.slot 0) }) hclaim.timer
  · rw [hshape]; exact hclaim.cfg
  · rw [hshape]; exact hclaim.engine
  · rw [hshape]; exact hclaim.port
  · rw [hshape]; exact hclaim.commitCounter
  · rw [hshape]; exact hclaim.downlink
  · rw [hshape]; exact hclaim.intrusions

end Sys2Proof.Proofs
end

section
/-! What a retire claim on any number of grants leaves (R45, R46), and the notices that it hands out (R136, R137). -/

namespace Sys2Proof.Machine

variable {s t u : State}

/-! ## The PLAN slots of several grants (R45 step 1) -/

/-- Step 1 of R45 for each of these grants. -/
def State.clearPlans (ids : List Nat) (s : State) : State := ids.foldl (fun s i => s.clearPlan i) s

theorem planOnly_clearPlans (ids : List Nat) (s : State) : PlanOnly s (s.clearPlans ids) :=
  PlanOnly.foldl (fun s i => planOnly_clearPlan s i) ids s

theorem payload_clearPlan (i : Nat) (s : State) : (s.clearPlan i).payload = s.payload := payload_foldl_recordChange _ _ _

theorem mem_planSlots {i n : Nat} : n ∈ s.planSlots i ↔ n ∈ s.payload ∧ s.planAt n = some i := by
  simp [State.planSlots]

theorem mem_planSlots_clearPlan {i j n : Nat} :
    n ∈ (s.clearPlan i).planSlots j ↔ n ∈ s.planSlots j ∧ j ≠ i := by
  rw [mem_planSlots, mem_planSlots, payload_clearPlan, planAt_clearPlan]
  by_cases h : n ∈ s.planSlots i
  · rw [if_pos h]
    refine ⟨fun k => (nomatch k.2), fun ⟨k, hj⟩ => absurd ?_ hj⟩
    exact Option.some.inj (k.2.symm.trans (mem_planSlots.1 h).2)
  · rw [if_neg h]
    refine ⟨fun k => ⟨k, ?_⟩, And.left⟩
    rintro rfl
    exact h (mem_planSlots.2 k)

theorem planSlots_clearPlan_other {i j : Nat} (hj : j ≠ i) : (s.clearPlan i).planSlots j = s.planSlots j := by
  have hmem : ∀ n ∈ s.payload, decide ((s.clearPlan i).planAt n = some j) = decide (s.planAt n = some j) := fun n hn => by
    have h := mem_planSlots_clearPlan (s := s) (i := i) (j := j) (n := n)
    rw [mem_planSlots, mem_planSlots, payload_clearPlan] at h
    simpa [hn, hj] using h
  rw [State.planSlots, payload_clearPlan]
  exact List.filter_congr hmem

theorem planAt_clearPlans (ids : List Nat) (s : State) (n : Nat) : (s.clearPlans ids).planAt n =
    if ids.any (fun i => (s.planSlots i).contains n) then none else s.planAt n := by
  induction ids generalizing s with
  | nil => rfl
  | cons i l ih =>
    have hcons : s.clearPlans (i :: l) = (s.clearPlan i).clearPlans l := rfl
    rw [hcons, ih, planAt_clearPlan]
    by_cases h : n ∈ s.planSlots i
    · simp [h]
    · have hany : l.any (fun k => ((s.clearPlan i).planSlots k).contains n) = l.any (fun k => (s.planSlots k).contains n) := by
        refine congrArg l.any (funext (fun k => ?_))
        rw [Bool.eq_iff_iff, List.contains_iff_mem, List.contains_iff_mem, mem_planSlots_clearPlan]
        exact and_iff_left_of_imp (fun hk he => h (he ▸ hk))
      rw [hany]
      simp [h]

theorem grant_clearPlans {ids : List Nat} (hd : ids.Nodup) (s : State) (j : Nat) : (s.clearPlans ids).grant j =
    if j ∈ ids then { s.grant j with planCount := (s.grant j).planCount - (s.planSlots j).length } else s.grant j := by
  induction ids generalizing s with
  | nil => simp [State.clearPlans]
  | cons i l ih =>
    obtain ⟨hi, hl⟩ := List.nodup_cons.1 hd
    have hcons : s.clearPlans (i :: l) = (s.clearPlan i).clearPlans l := rfl
    rw [hcons, ih hl, grant_clearPlan]
    by_cases hj : j = i
    · subst hj
      simp [hi]
    · simp [hj, planSlots_clearPlan_other hj]

/-! ## The stations of a claim (R30, R108) -/

/-- What a claim may do to a station record: its counts move, `held` only down; LEAVING, it may go ABSENT with its last. -/
structure Station.ClaimedTo (r q : Station) : Prop where
  held_le : q.held ≤ r.held
  stays_or_departs : q = { r with held := q.held, planned := q.planned }
    ∨ (r.state = .leaving
        ∧ q = { r with held := 0, planned := q.planned, state := .absent, suspended := false, missed := 0 })

namespace Station.ClaimedTo

variable {r q p : Station}

theorem refl (r : Station) : r.ClaimedTo r := ⟨le_rfl, .inl rfl⟩

theorem trans (h : r.ClaimedTo q) (k : q.ClaimedTo p) : r.ClaimedTo p := by
  refine ⟨k.held_le.trans h.held_le, ?_⟩
  rcases h.stays_or_departs with hq | ⟨hl, hq⟩
  · rcases k.stays_or_departs with hp | ⟨hl', hp⟩
    · refine .inl ?_
      rw [hp, hq]
    · refine .inr ⟨?_, ?_⟩
      · rw [hq] at hl'
        exact hl'
      · rw [hp, hq]
  · rcases k.stays_or_departs with hp | ⟨hl', -⟩
    · refine .inr ⟨hl, ?_⟩
      have hz : p.held = 0 := by
        have := k.held_le
        rw [hq] at this
        exact Nat.le_zero.1 this
      rw [hp, hq, hz]
    · rw [hq] at hl'
      nomatch hl'

theorem planned (r : Station) (n : Nat) : r.ClaimedTo { r with planned := n } := ⟨le_rfl, .inl rfl⟩

theorem released (r : Station) : r.ClaimedTo r.released := by
  unfold Station.released
  split
  · rename_i h
    obtain ⟨hl, hz⟩ := h
    refine ⟨Nat.sub_le _ _, .inr ⟨hl, ?_⟩⟩
    rw [hz]
  · exact ⟨Nat.sub_le _ _, .inl rfl⟩

theorem releases (k : Nat) (r : Station) : r.ClaimedTo (Station.released^[k] r) := by
  induction k generalizing r with
  | zero => exact refl r
  | succ k ih =>
    rw [Function.iterate_succ_apply]
    exact (released r).trans (ih _)

theorem of_not_leaving (h : r.ClaimedTo q) (hl : r.state ≠ .leaving) :
    q = { r with held := q.held, planned := q.planned } :=
  h.stays_or_departs.resolve_right (fun k => hl k.1)

theorem present (h : r.ClaimedTo q) (hp : r.state.present = true) : q.state.present = true := by
  rw [h.of_not_leaving (fun hl => by rw [hl] at hp; nomatch hp)]
  exact hp

end Station.ClaimedTo

theorem claimedTo_recordChange (s : State) (n : Nat) (y : Owner) (a : Nat) :
    (s.station a).ClaimedTo ((s.recordChange n y).station a) := by
  unfold State.recordChange
  dsimp only
  split
  · exact .refl _
  · have down : ∀ (u : State) (x : Owner), (u.station a).ClaimedTo ((u.planCountDown x).station a) := fun u x => by
      cases x with
      | none => exact .refl _
      | some i =>
        rw [station_planCountDown]
        split
        · exact .planned _ _
        · exact .refl _
    have up : ∀ (u : State) (x : Owner), (u.station a).ClaimedTo ((u.planCountUp x).station a) := fun u x => by
      cases x with
      | none => exact .refl _
      | some i =>
        rw [station_planCountUp]
        split
        · exact .planned _ _
        · exact .refl _
    have open' : (s.openIfNone.updMap (SlotMap.recordIn n (s.planAt n) y)).station a = s.station a :=
      State.station_congr (by simp) a
    exact open' ▸ (down _ _).trans (up _ _)

theorem claimedTo_clearPlan (s : State) (i a : Nat) : (s.station a).ClaimedTo ((s.clearPlan i).station a) :=
  foldl_keeps (P := fun u => (s.station a).ClaimedTo (u.station a))
    (fun n u h => h.trans (claimedTo_recordChange u n none a)) _ (.refl _)

theorem claimedTo_clearPlans (ids : List Nat) (s : State) (a : Nat) :
    (s.station a).ClaimedTo ((s.clearPlans ids).station a) :=
  foldl_keeps (P := fun u => (s.station a).ClaimedTo (u.station a))
    (fun i u h => h.trans (claimedTo_clearPlan u i a)) _ (.refl _)

theorem claimedTo_complete (touched : List Nat) (s : State) (a : Nat) :
    (s.station a).ClaimedTo ((s.complete touched).station a) := by
  rw [station_complete]
  exact .releases _ _

/-- A station that owns none of these grants is not told of their slots. -/
theorem station_clearPlan_other {i a : Nat} (h : (s.grant i).owner ≠ some a) :
    (s.clearPlan i).station a = s.station a := by
  have hkeep : ∀ (l : List Nat) (u : State), (∀ n ∈ l, u.planAt n = some i ∨ u.planAt n = none) →
      (u.grant i).owner ≠ some a → (l.foldl (fun s n => s.recordChange n none) u).station a = u.station a := by
    intro l
    induction l with
    | nil => exact fun _ _ _ => rfl
    | cons n l ih =>
      intro u hl ho
      have hplan : ∀ m ∈ l, (u.recordChange n none).planAt m = some i ∨ (u.recordChange n none).planAt m = none :=
        fun m hm => by
          rw [planAt_recordChange]
          split
          · exact .inr rfl
          · exact hl m (by simp [hm])
      rw [List.foldl_cons, ih _ hplan (by rw [owner_recordChange]; exact ho)]
      rcases hl n (by simp) with hn | hn
      · have hchange : u.recordChange n none
            = ((u.openIfNone.updMap (SlotMap.recordIn n (some i) none)).planCountDown (some i)).planCountUp none := by
          unfold State.recordChange
          rw [hn]
          rfl
        have hopen : (u.openIfNone.updMap (SlotMap.recordIn n (some i) none)).grant i = u.grant i :=
          State.grant_congr (by simp) i
        rw [hchange]
        refine (station_planCountDown _ i a).trans ?_
        rw [hopen, if_neg ho]
        exact State.station_congr (by simp) a
      · rw [recordChange_same hn]
  exact hkeep _ s (fun n hn => .inl (mem_planSlots.1 hn).2) h

theorem owner_clearPlan (s : State) (i j : Nat) : ((s.clearPlan i).grant j).owner = (s.grant j).owner := by
  rw [grant_clearPlan_but_count]

theorem station_clearPlans_other {ids : List Nat} {a : Nat} (h : ∀ i ∈ ids, (s.grant i).owner ≠ some a) :
    (s.clearPlans ids).station a = s.station a := by
  induction ids generalizing s with
  | nil => rfl
  | cons i l ih =>
    have hcons : s.clearPlans (i :: l) = (s.clearPlan i).clearPlans l := rfl
    rw [hcons, ih (fun j hj => by rw [owner_clearPlan]; exact h j (by simp [hj])),
      station_clearPlan_other (h i (by simp))]

end Sys2Proof.Machine
end

section
/-! The notices that a station is told (R136, R137), and a retire claim as a whole (R45, R46). -/

namespace Sys2Proof.Machine

variable {s t u : State}

/-! ## What the handing of notices touches -/

/-- `t` is `s` but for the mailboxes and the flags. -/
def NoticeOnly (s t : State) : Prop := t = { s with mailboxes := t.mailboxes, ints := t.ints }

theorem NoticeOnly.refl (s : State) : NoticeOnly s s := rfl

theorem NoticeOnly.trans (h : NoticeOnly s t) (k : NoticeOnly t u) : NoticeOnly s u := by
  unfold NoticeOnly at *
  rw [k, h]

theorem NoticeOnly.foldl {α : Type} {f : State → α → State} (h : ∀ s x, NoticeOnly s (f s x)) (l : List α) (s : State) :
    NoticeOnly s (l.foldl f s) := by
  induction l generalizing s with
  | nil => exact .refl s
  | cons x l ih => exact (h s x).trans (ih _)

section
variable (h : NoticeOnly s t)
include h
theorem NoticeOnly.claimOnly : ClaimOnly s t := by unfold ClaimOnly; rw [h]
theorem NoticeOnly.map : t.map = s.map := by rw [h]
theorem NoticeOnly.freeQueue : t.freeQueue = s.freeQueue := by rw [h]
theorem NoticeOnly.grant (i : Nat) : t.grant i = s.grant i := State.grant_congr (by rw [h]) i
theorem NoticeOnly.station (a : Nat) : t.station a = s.station a := State.station_congr (by rw [h]) a
theorem NoticeOnly.planAt (n : Nat) : t.planAt n = s.planAt n := by unfold State.planAt; rw [h.map]
end

theorem noticeOnly_handNotice (a : Nat) (n : Notice) (s : State) : NoticeOnly s (s.handNotice a n) := by
  unfold State.handNotice
  split
  · split <;> rfl
  · rfl

theorem noticeOnly_noticeRevoked (why : Option RevokeReason) (o : Option Nat) (h : Handle) (i : Nat) (s : State) :
    NoticeOnly s (s.noticeRevoked why o h i) := noticeRevoked_eq _ why o h i

theorem noticeOnly_noticeOwner (i : Nat) (n : Notice) (s : State) : NoticeOnly s (s.noticeOwner i n) := by
  unfold State.noticeOwner
  split
  · exact .refl s
  · exact noticeOnly_handNotice _ _ s

theorem mailbox_handNotice_other {a b : Nat} (hb : b ≠ a) (n : Notice) : (s.handNotice a n).mailbox b = s.mailbox b := by
  unfold State.handNotice
  have hother : ∀ f, (s.updMailbox a f).mailbox b = s.mailbox b := fun f => by rw [State.mailbox_updMailbox, if_neg hb]
  split
  · split
    · exact hother (fun m => { m with queue := markSyncLost m.queue })
    · exact hother (Mailbox.append n)
  · rfl

theorem mailbox_noticeRevoked_other {o : Option Nat} {a : Nat} (ho : o ≠ some a) (why : Option RevokeReason) (h : Handle)
    (i : Nat) : (s.noticeRevoked why o h i).mailbox a = s.mailbox a := by
  unfold State.noticeRevoked
  split
  · rename_i b
    split
    · rfl
    · exact mailbox_handNotice_other (fun hb => ho (by rw [hb])) _
  · rfl

theorem handNotice_of_absent {a : Nat} (h : (s.station a).state.present = false) (n : Notice) : s.handNotice a n = s := by
  unfold State.handNotice
  rw [if_neg (by rw [h]; exact Bool.false_ne_true)]

theorem queue_handNotice {a : Nat} {n : Notice} (h : (s.station a).state.present = true)
    (hroom : (s.mailbox a).queue.length < Config.noticeLimit) :
    ((s.handNotice a n).mailbox a).queue = (s.mailbox a).queue ++ [n] := by
  unfold State.handNotice
  rw [if_pos h, if_neg (Nat.not_le.2 hroom), State.mailbox_updMailbox, if_pos rfl]
  rfl

/-! ## Effective frames (R43) -/

theorem effectFor_congr (hm : t.map = s.map) (ht : t.timer = s.timer) (ids : List Nat) :
    t.effectFor ids = s.effectFor ids := by
  unfold State.effectFor
  rw [hm, ht]

/-! ## The notices queued for one station -/

section queues
variable {a : Nat}

theorem queues_of_same (h : (t.mailbox a).queue = (s.mailbox a).queue) : s.queues a [] t := by
  intro _ _
  rw [h, List.append_nil]

theorem queues_trans {l k : List Notice} (hp : (s.station a).state.present = true → (t.station a).state.present = true)
    (h : s.queues a l t) (h' : t.queues a k u) : s.queues a (l ++ k) u := by
  intro hs hlen
  rw [List.length_append] at hlen
  have ht := h hs (by omega)
  rw [h' (hp hs) (by rw [ht, List.length_append]; omega), ht, List.append_assoc]

/-- What is told after operations that leave a station present and its queue alone. -/
theorem queues_after {l : List Notice} (hp : (s.station a).state.present = true → (t.station a).state.present = true
    ∧ (t.mailbox a).queue = (s.mailbox a).queue) (h : t.queues a l u) : s.queues a l u := by
  intro hs hlen
  obtain ⟨ht, hm⟩ := hp hs
  rw [h ht (by rw [hm]; exact hlen), hm]

theorem queues_handNotice (s : State) (a b : Nat) (n : Notice) :
    s.queues b (if b = a then [n] else []) (s.handNotice a n) := by
  split
  · rename_i hb
    subst hb
    intro hp hlen
    exact queue_handNotice hp (by simp only [List.length_cons, List.length_nil] at hlen; omega)
  · rename_i hb
    exact queues_of_same (by rw [mailbox_handNotice_other hb])

theorem queues_noticeRevoked (s : State) (r : RevokeReason) (o : Option Nat) (h : Handle) (i b : Nat) :
    s.queues b (if o = some b then [.revoked h r (s.effectFor [i]).frame] else []) (s.noticeRevoked (some r) o h i) := by
  cases o with
  | none => exact queues_of_same rfl
  | some a =>
    unfold State.noticeRevoked
    dsimp only
    by_cases hl : (s.station a).state = .leaving
    · rw [if_pos hl]
      split
      · rename_i hb
        obtain rfl := Option.some.inj hb
        intro hp
        rw [hl] at hp
        nomatch hp
      · exact queues_of_same rfl
    · rw [if_neg hl]
      have hq := queues_handNotice s a b (.revoked h r (s.effectFor [i]).frame)
      simpa [eq_comm] using hq

/-- A fold of operations, each of which tells the station its notices. -/
theorem queues_foldl {α : Type} {f : State → α → State} {told : α → List Notice} {P : State → Prop} {l : List α}
    (hstep : ∀ u x, x ∈ l → P u → P (f u x) ∧ u.queues a (told x) (f u x)
      ∧ ((u.station a).state.present = true → ((f u x).station a).state.present = true))
    (h : P s) : s.queues a (l.flatMap told) (l.foldl f s) := by
  induction l generalizing s with
  | nil => exact queues_of_same rfl
  | cons x l ih =>
    obtain ⟨hP, hq, hp⟩ := hstep s x (by simp) h
    exact queues_trans hp hq (ih (fun u y hy => hstep u y (by simp [hy])) hP)

end queues

/-! ## A retire claim (R45, R46) -/

/-- The records that a retire claim on these grants retires. -/
def State.retiredIds (named : List Nat) (s : State) : List Nat :=
  (List.range Config.grantCount).filter (fun i => named.contains i && (s.grant i).state.retirable)

theorem mem_retiredIds {named : List Nat} {i : Nat} :
    i ∈ s.retiredIds named ↔ i < Config.grantCount ∧ i ∈ named ∧ (s.grant i).state.retirable = true := by
  simp [State.retiredIds]

theorem nodup_retiredIds (named : List Nat) (s : State) : (s.retiredIds named).Nodup := List.nodup_range.filter _

theorem touchedIds_retiredIds (named : List Nat) (s : State) : touchedIds (s.retiredIds named) = s.retiredIds named := by
  refine List.filter_congr (fun i hi => ?_)
  rw [Bool.eq_iff_iff, List.contains_iff_mem, mem_retiredIds, Bool.and_eq_true, List.contains_iff_mem]
  exact and_iff_right (List.mem_range.1 hi)

/-- The state in which a retire claim hands out its notices. -/
def State.retiring (named : List Nat) (s : State) : State :=
  (s.clearPlans (s.retiredIds named)).complete (s.retiredIds named)

theorem retire_eq (named : List Nat) (why : Option RevokeReason) (s : State) : s.retire named why =
    ((s.retiredIds named).foldl (fun u i => u.noticeRevoked why (s.grant i).owner (s.handle i) i) (s.retiring named),
      s.retiredIds named) := by
  refine Prod.ext ?_ rfl
  exact List.foldl_map

theorem noticeOnly_retire (named : List Nat) (why : Option RevokeReason) (s : State) :
    NoticeOnly (s.retiring named) (s.retire named why).1 := by
  rw [retire_eq]
  exact NoticeOnly.foldl (fun u i => noticeOnly_noticeRevoked _ _ _ _ u) _ _

/-- A claim without a reason hands out no notice. -/
theorem retire_silent (named : List Nat) (s : State) : (s.retire named none).1 = s.retiring named := by
  rw [retire_eq]
  exact foldl_keeps (P := fun u => u = s.retiring named) (fun i u hu => hu) _ rfl

theorem claimOnly_retiring (named : List Nat) (s : State) : ClaimOnly s (s.retiring named) :=
  (ClaimOnly.of_planOnly (planOnly_clearPlans _ s)).trans (claimOnly_complete _)

theorem claimOnly_retire (named : List Nat) (why : Option RevokeReason) (s : State) :
    ClaimOnly s (s.retire named why).1 := (claimOnly_retiring named s).trans (noticeOnly_retire named why s).claimOnly

theorem planAt_retire (named : List Nat) (why : Option RevokeReason) (s : State) (n : Nat) :
    (s.retire named why).1.planAt n =
      if (s.retiredIds named).any (fun i => (s.planSlots i).contains n) then none else s.planAt n := by
  rw [(noticeOnly_retire named why s).planAt, ← planAt_clearPlans]
  exact congrArg (fun m : SlotMap => m.plan.get none n) (map_complete _ _)

/-- ACTIVE, taint and the SEALED epoch stay. -/
theorem maps_retire (named : List Nat) (why : Option RevokeReason) (s : State) :
    (s.retire named why).1.map.active = s.map.active ∧ (s.retire named why).1.map.taint = s.map.taint
      ∧ (s.retire named why).1.map.sealedEpoch = s.map.sealedEpoch :=
  ⟨(kept_active s.map.active).retire named why rfl, (kept_taint s.map.taint).retire named why rfl,
    (kept_sealed s.map.sealedEpoch).retire named why rfl⟩

theorem effectFor_retire (named : List Nat) (why : Option RevokeReason) (s : State) (ids : List Nat) :
    (s.retire named why).1.effectFor ids = (s.clearPlans (s.retiredIds named)).effectFor ids := by
  refine effectFor_congr ?_ ?_ ids
  · rw [(noticeOnly_retire named why s).map]
    exact map_complete _ _
  · rw [(claimOnly_retire named why s).timer, (ClaimOnly.of_planOnly (planOnly_clearPlans _ s)).timer]

theorem grant_retire_other {named : List Nat} {j : Nat} (hj : j ∉ s.retiredIds named) (why : Option RevokeReason) :
    (s.retire named why).1.grant j = s.grant j := by
  rw [(noticeOnly_retire named why s).grant, State.retiring, grant_complete_other hj,
    grant_clearPlans (nodup_retiredIds named s), if_neg hj]

theorem retirable_ne {x : GrantState} (h : x.retirable = true) : x ≠ .free ∧ x ≠ .placing ∧ x ≠ .draining := by
  refine ⟨?_, ?_, ?_⟩ <;> rintro rfl <;> exact absurd h Bool.false_ne_true

/-- A record retired, with nothing left in PLAN, is DRAINING, or freed where nothing names it (R23, R45). -/
theorem grant_retire {named : List Nat} {i : Nat} (hi : i ∈ named) (hr : s.canRetire i) (why : Option RevokeReason) :
    (s.retire named why).1.grant i =
      if (s.clearPlans (s.retiredIds named)).derived i = .free then Grant.freeWith ((s.grant i).generation + 1)
      else { s.grant i with state := .draining, planCount := 0 } := by
  obtain ⟨hlt, hstate, hcount⟩ := hr
  have hmem : i ∈ s.retiredIds named := mem_retiredIds.2 ⟨hlt, hi, hstate⟩
  have hgrant : (s.clearPlans (s.retiredIds named)).grant i = { s.grant i with planCount := 0 } := by
    rw [grant_clearPlans (nodup_retiredIds named s), if_pos hmem, hcount, Nat.sub_self]
  obtain ⟨hfree, hplacing, -⟩ := retirable_ne hstate
  rw [(noticeOnly_retire named why s).grant, State.retiring, grant_complete, touchedIds_retiredIds,
    if_pos ⟨hmem, by rw [hgrant]; exact hfree⟩]
  split
  · rw [hgrant]
  · rename_i hd
    have hdraining : (s.clearPlans (s.retiredIds named)).derived i = .draining := by
      unfold State.derived at hd ⊢
      dsimp only at hd ⊢
      rw [hgrant] at hd ⊢
      rw [if_neg hplacing] at hd ⊢
      split at hd
      · exact absurd rfl hd
      · rename_i hf
        rw [if_neg hf]
        exact if_pos rfl
    rw [hdraining, hgrant]

/-- Freed, a record has nothing in ACTIVE. -/
theorem activeCount_of_freed {named : List Nat} {i : Nat}
    (h : (s.clearPlans (s.retiredIds named)).derived i = .free) : (s.grant i).activeCount = 0 := by
  obtain ⟨-, -, hactive, -⟩ := derived_eq_free_iff.1 h
  rw [grant_clearPlans (nodup_retiredIds named s)] at hactive
  split at hactive
  · exact hactive
  · exact hactive

theorem drainsOrFrees_retire {named : List Nat} {i : Nat} (hi : i ∈ named) (hr : s.canRetire i)
    (why : Option RevokeReason) : s.drainsOrFrees i (s.retire named why).1 := by
  have h := grant_retire hi hr why
  split at h
  · rename_i hd
    exact .inr ⟨h, activeCount_of_freed hd⟩
  · refine .inl ?_
    rw [h]
    exact ⟨rfl, rfl, rfl, rfl⟩

/-- With a slot in ACTIVE a record retired is DRAINING. -/
theorem grant_retire_active {named : List Nat} {i : Nat} (hi : i ∈ named) (hr : s.canRetire i)
    (ha : (s.grant i).activeCount ≠ 0) (why : Option RevokeReason) :
    (s.retire named why).1.grant i = { s.grant i with state := .draining, planCount := 0 } := by
  rw [grant_retire hi hr why, if_neg (fun h => ha (activeCount_of_freed h))]

theorem freeQueue_retire (named : List Nat) (why : Option RevokeReason) (s : State) :
    (s.retire named why).1.freeQueue
      = s.freeQueue ++ (s.retiredIds named).filter (s.clearPlans (s.retiredIds named)).freesDue := by
  have hclear : (s.clearPlans (s.retiredIds named)).freeQueue = s.freeQueue := by rw [planOnly_clearPlans _ s]
  rw [(noticeOnly_retire named why s).freeQueue, State.retiring, freeQueue_complete, touchedIds_retiredIds, hclear]

theorem claimedTo_retire (named : List Nat) (why : Option RevokeReason) (s : State) (a : Nat) :
    (s.station a).ClaimedTo ((s.retire named why).1.station a) := by
  rw [(noticeOnly_retire named why s).station]
  exact (claimedTo_clearPlans _ s a).trans (claimedTo_complete _ _ a)

theorem owner_clearPlans (ids : List Nat) (s : State) (j : Nat) : ((s.clearPlans ids).grant j).owner = (s.grant j).owner :=
  foldl_keeps (P := fun u => (u.grant j).owner = (s.grant j).owner) (fun i u hu => (owner_clearPlan u i j).trans hu) ids rfl

theorem mailbox_clearPlans (ids : List Nat) (s : State) (a : Nat) : (s.clearPlans ids).mailbox a = s.mailbox a :=
  State.mailbox_congr (by rw [planOnly_clearPlans ids s]) a

/-- A station that owns none of the grants named keeps its record and, without a reason or with, its notices. -/
theorem retire_other {named : List Nat} {a : Nat} (h : ∀ i ∈ s.retiredIds named, (s.grant i).owner ≠ some a)
    (why : Option RevokeReason) :
    (s.retire named why).1.station a = s.station a ∧ (s.retire named why).1.mailbox a = s.mailbox a := by
  obtain ⟨hst, hmb⟩ := station_complete_other (s := s.clearPlans (s.retiredIds named)) (touched := s.retiredIds named)
    (a := a) (fun i hi => by rw [owner_clearPlans]; exact h i hi)
  refine ⟨?_, ?_⟩
  · rw [(noticeOnly_retire named why s).station, State.retiring, hst, station_clearPlans_other h]
  · rw [retire_eq]
    have hkeep : ∀ (l : List Nat) (u : State), (∀ i ∈ l, (s.grant i).owner ≠ some a) →
        (l.foldl (fun u i => u.noticeRevoked why (s.grant i).owner (s.handle i) i) u).mailbox a = u.mailbox a := by
      intro l
      induction l with
      | nil => exact fun _ _ => rfl
      | cons i l ih =>
        intro u hl
        rw [List.foldl_cons, ih _ (fun j hj => hl j (by simp [hj]))]
        exact mailbox_noticeRevoked_other (hl i (by simp)) why _ _
    dsimp only
    rw [hkeep _ _ h, State.retiring, hmb, mailbox_clearPlans]

theorem mailbox_retiring {a : Nat} (h : (s.station a).state ≠ .leaving) (named : List Nat) :
    (s.retiring named).mailbox a = s.mailbox a := by
  rcases mailbox_complete (s.retiredIds named) (s.clearPlans (s.retiredIds named)) a with hm | ⟨-, hl, -⟩
  · exact hm.trans (mailbox_clearPlans _ s a)
  · rw [(claimedTo_clearPlans (s.retiredIds named) s a).of_not_leaving h] at hl
    exact absurd hl h

theorem state_ne_leaving_of_present {x : StationState} (h : x.present = true) : x ≠ .leaving := by
  rintro rfl
  nomatch h

theorem flatMap_singletons {α β : Type} (p : α → Bool) (f : α → β) (l : List α) :
    l.flatMap (fun x => if p x then [f x] else []) = (l.filter p).map f := by
  induction l with
  | nil => rfl
  | cons x l ih =>
    rw [List.flatMap_cons, ih, List.filter_cons]
    split <;> rfl

/-- Each station present is told of its own grants, in ascending order of index. -/
theorem queues_retire (named : List Nat) (r : RevokeReason) (s : State) (a : Nat) :
    s.queues a (((s.retiredIds named).filter (fun i => (s.grant i).owner == some a)).map
      (fun i => .revoked (s.handle i) r ((s.retire named (some r)).1.effectFor [i]).frame)) (s.retire named (some r)).1 := by
  have heffect : ∀ (u : State) (ids : List Nat), NoticeOnly (s.retiring named) u →
      u.effectFor ids = (s.retiring named).effectFor ids := fun u ids hu =>
    effectFor_congr hu.map hu.claimOnly.timer ids
  rw [← flatMap_singletons]
  simp only [heffect _ _ (noticeOnly_retire named (some r) s)]
  refine queues_after (t := s.retiring named) (fun hp => ⟨?_, ?_⟩) ?_
  · have hclaim := claimedTo_retire named (some r) s a
    rw [(noticeOnly_retire named (some r) s).station] at hclaim
    exact hclaim.present hp
  · rw [mailbox_retiring (state_ne_leaving_of_present hp)]
  · rw [retire_eq]
    refine queues_foldl (P := NoticeOnly (s.retiring named)) (fun u i _ hu => ?_) (.refl _)
    have hone := noticeOnly_noticeRevoked (some r) (s.grant i).owner (s.handle i) i u
    refine ⟨hu.trans hone, ?_, fun hp => by rw [hone.station]; exact hp⟩
    have hq := queues_noticeRevoked u r (s.grant i).owner (s.handle i) i a
    rw [heffect u [i] hu] at hq
    simpa using hq

/-! ## A retire claim on one grant (R45) -/

section one
variable {i : Nat}

theorem retiredIds_one (h : s.canRetire i) : s.retiredIds [i] = [i] := by
  obtain ⟨hlt, hstate, -⟩ := h
  unfold State.retiredIds
  rw [List.filter_congr (q := fun j => [i].contains j) (fun j _ => by
    rw [Bool.eq_iff_iff, Bool.and_eq_true]
    refine and_iff_left_of_imp (fun hj => ?_)
    rw [List.contains_iff_mem, List.mem_singleton] at hj
    rw [hj]
    exact hstate)]
  exact (filter_range_eq _ _).trans (if_pos hlt)

theorem retiredTo_retire (h : s.canRetire i) (why : Option RevokeReason) : s.retiredTo i (s.retire [i] why).1 := by
  have hids := retiredIds_one h
  have hgrant := grant_retire (List.mem_singleton_self i) h why
  have hfree := freeQueue_retire [i] why s
  refine ⟨fun n => ?_, maps_retire [i] why s, ?_, fun j hj => ?_, (claimOnly_retire [i] why s).commitCounter⟩
  · rw [planAt_retire, hids]
    simp
  · rw [hids] at hgrant hfree
    have hstate : ((s.clearPlans [i]).grant i).state ≠ .free := by
      rw [grant_clearPlans (List.nodup_singleton i), if_pos (List.mem_singleton_self i)]
      exact (retirable_ne h.2.1).1
    by_cases hd : (s.clearPlans [i]).derived i = .free
    · rw [if_pos hd] at hgrant
      rw [List.filter_cons, if_pos (freesDue_iff.2 ⟨hstate, hd⟩)] at hfree
      exact .inr ⟨hgrant, hfree⟩
    · rw [if_neg hd] at hgrant
      rw [List.filter_cons, if_neg (fun k => hd (freesDue_iff.1 k).2), List.filter_nil, List.append_nil] at hfree
      rw [hgrant]
      exact .inl ⟨rfl, rfl, rfl, hfree⟩
  · exact grant_retire_other (by rw [hids]; simpa using hj) why

theorem queues_retire_one (h : s.canRetire i) (r : RevokeReason) {a : Nat} (ho : (s.grant i).owner = some a) :
    s.queues a [.revoked (s.handle i) r ((s.retire [i] (some r)).1.effectFor [i]).frame] (s.retire [i] (some r)).1 := by
  have hq := queues_retire [i] r s a
  rw [retiredIds_one h, List.filter_cons, if_pos (by simpa using ho)] at hq
  exact hq

end one

end Sys2Proof.Machine
end

section
/-! RELEASE, RETIRE_ALL and RENEW at the Request Port (O45, O46, O47; R45, R46, R93, R94, R167 to R169). -/

namespace Sys2Proof.Machine

variable {s t u : State} {e : Quad}

/-! ## Ops that make a claim (R164, R165) -/

/-- The claim that left `u` is answered `r`, for request `e` posted in `s`. -/
def State.answeredAfter (e : Quad) (r : Answer) (s u : State) : State :=
  { u with port := { s.port with staging := e, results := s.port.results ++ [resultEntry e 0 r] }
           ints := u.ints.raise .result }

theorem exec_claimed {c : Instr} {r : Answer} (hc : operationOf c = some (State.request e)) (h : s.ready) (hp : s.portFree)
    (hperform : (s.clearSuspension e).perform e = State.answer e (u, r)) (hport : u.port = (s.clearSuspension e).port) :
    exec c s = .next (s.answeredAfter e r u) := by
  rw [port_clearSuspension] at hport
  rw [exec_request hc h hp, hperform]
  unfold State.answeredAfter
  rw [← hport]
  rfl

/-- The word of an effective frame (R193). -/
theorem frameWord_fields (f : BitVec 16) : (f.setWidth 32).extractLsb' 0 16 = f ∧ (f.setWidth 32).extractLsb' 16 16 = 0 := by
  refine ⟨?_, ?_⟩
  · refine BitVec.eq_of_getLsbD_eq (fun i hi => ?_)
    simp [hi, Nat.lt_trans hi (by decide : 16 < 32)]
  · refine BitVec.eq_of_getLsbD_eq (fun i hi => ?_)
    simp [hi, -BitVec.getLsbD_eq_getElem]

theorem epochField_fields (k : Option (BitVec 8)) : (epochField k).extractLsb' 0 8 = k.getD 0
    ∧ (epochField k).getLsbD 8 = k.isSome ∧ (epochField k).extractLsb' 9 23 = 0 := by
  cases k with
  | none => exact ⟨rfl, rfl, rfl⟩
  | some n =>
    refine ⟨?_, ?_, ?_⟩
    · simp [epochField]
    · simp [epochField, -BitVec.getLsbD_eq_getElem]
    · refine BitVec.eq_of_getLsbD_eq (fun i hi => ?_)
      simp [epochField, -BitVec.getLsbD_eq_getElem]

theorem places_resultEntry (e : Quad) (h : Handle) (f : Effect) :
    (resultEntry e 0 (.placed h f)).places e.opCode e.tag h f := by
  obtain ⟨hlow, hhigh⟩ := frameWord_fields f.frame
  exact ⟨headed_resultEntry e 0 (.placed h f), rfl, hlow, hhigh, epochField_fields f.epoch⟩

/-- The handle that a passing check names is the record's own (R21, R22). -/
theorem handle_of_passes {h : Handle} (hp : s.handlePasses h = true) : s.handle h.index.toNat = h := by
  obtain ⟨-, -, -, hgen⟩ := State.handlePasses_iff.1 hp
  unfold State.handle
  rw [← hgen]
  simp

/-- States that agree on the records, the Slot Map, the Free Record Queue and the Frame Timer. -/
structure SameRecords (s t : State) : Prop where
  grants : t.grants = s.grants
  map : t.map = s.map
  freeQueue : t.freeQueue = s.freeQueue
  timer : t.timer = s.timer
  commitCounter : t.commitCounter = s.commitCounter

namespace SameRecords

variable {s' t' : State}

theorem trans (h : SameRecords s t) (k : SameRecords t u) : SameRecords s u :=
  ⟨k.grants.trans h.grants, k.map.trans h.map, k.freeQueue.trans h.freeQueue, k.timer.trans h.timer,
    k.commitCounter.trans h.commitCounter⟩

theorem symm (h : SameRecords s t) : SameRecords t s :=
  ⟨h.grants.symm, h.map.symm, h.freeQueue.symm, h.timer.symm, h.commitCounter.symm⟩

theorem grant (h : SameRecords s t) (i : Nat) : t.grant i = s.grant i := State.grant_congr h.grants i

theorem planAt (h : SameRecords s t) (n : Nat) : t.planAt n = s.planAt n := by unfold State.planAt; rw [h.map]

theorem planSlots (h : SameRecords s t) (i : Nat) : t.planSlots i = s.planSlots i := by
  unfold State.planSlots State.payload State.planAt
  rw [h.map, h.timer]

theorem handle (h : SameRecords s t) (i : Nat) : t.handle i = s.handle i := by unfold State.handle; rw [h.grant]

theorem handlePasses (h : SameRecords s t) (g : Handle) : t.handlePasses g = s.handlePasses g := by
  unfold State.handlePasses
  rw [h.grant]

theorem effectFor (h : SameRecords s t) (ids : List Nat) : t.effectFor ids = s.effectFor ids :=
  effectFor_congr h.map h.timer ids

theorem canRetire (h : SameRecords s t) {i : Nat} : t.canRetire i ↔ s.canRetire i := by
  unfold State.canRetire
  rw [h.grant, h.planSlots]

theorem retiredTo (hs : SameRecords s s') (ht : SameRecords t t') {i : Nat} (h : s.retiredTo i t) : s'.retiredTo i t' := by
  unfold State.retiredTo at h ⊢
  simp only [hs.grant, hs.planSlots, hs.planAt, hs.map, hs.freeQueue, hs.commitCounter, ht.grant, ht.planAt, ht.map,
    ht.freeQueue, ht.commitCounter]
  exact h

theorem drainsOrFrees (hs : SameRecords s s') (ht : SameRecords t t') {i : Nat} (h : s.drainsOrFrees i t) :
    s'.drainsOrFrees i t' := by
  unfold State.drainsOrFrees at h ⊢
  rw [hs.grant, ht.grant]
  exact h

end SameRecords

theorem sameRecords_clearSuspension (e : Quad) (s : State) : SameRecords s (s.clearSuspension e) := by
  rw [clearSuspension_eq]
  exact ⟨rfl, rfl, rfl, rfl, rfl⟩

theorem sameRecords_answeredAfter (e : Quad) (r : Answer) (s u : State) : SameRecords u (s.answeredAfter e r u) :=
  ⟨rfl, rfl, rfl, rfl, rfl⟩

theorem state_clearSuspension (e : Quad) (s : State) (a : Nat) :
    ((s.clearSuspension e).station a).state = (s.station a).state := by
  rw [station_clearSuspension]

theorem mailbox_clearSuspension (e : Quad) (s : State) (a : Nat) : (s.clearSuspension e).mailbox a = s.mailbox a :=
  State.mailbox_congr (by rw [clearSuspension_eq]) a

/-- What is told after the suspension clearing and up to the answer. -/
theorem queues_answered {r : Answer} {a : Nat} {l : List Notice} (h : (s.clearSuspension e).queues a l u) :
    s.queues a l (s.answeredAfter e r u) := by
  have hs : s.queues a l u := queues_after (fun hp => by
    rw [state_clearSuspension, mailbox_clearSuspension]
    exact ⟨hp, rfl⟩) h
  exact hs

/-! ## RELEASE (R167) -/

theorem performRelease_fails {h : Handle} (hp : s.handlePasses h = false) :
    s.performRelease h = (s, .refused .staleHandle) := by
  unfold State.performRelease
  exact if_neg (Bool.eq_false_iff.1 hp)

theorem performRelease_draining {h : Handle} (hp : s.handlePasses h = true)
    (hd : (s.grant h.index.toNat).state = .draining) : s.performRelease h = (s, .refused .retiring) := by
  unfold State.performRelease
  rw [if_pos hp, if_pos hd]

theorem performRelease_retires {h : Handle} (hp : s.handlePasses h = true)
    (hd : (s.grant h.index.toNat).state ≠ .draining) : s.performRelease h =
      ((s.retire [h.index.toNat] (some .released)).1,
        .placed h ((s.retire [h.index.toNat] (some .released)).1.effectFor [h.index.toNat])) := by
  unfold State.performRelease
  rw [if_pos hp, if_neg hd]

/-! ## RETIRE_ALL (R46, R168) -/

theorem performRetireAll_fails {a : Nat} (h : 48 ≤ a) : s.performRetireAll a = (s, .refused .badRequest) := by
  unfold State.performRetireAll
  rw [if_neg (fun k => k.elim (by omega) (fun hs => by rw [isStation_iff] at hs; omega))]

theorem performRetireAll_retires {a : Nat} (h : a ≤ 47) : s.performRetireAll a =
    ((s.retire (s.namedByRetireAll a) (some .released)).1,
      .ok (BitVec.ofNat 32 (s.retiredIds (s.namedByRetireAll a)).length)
        (((s.retire (s.namedByRetireAll a) (some .released)).1.effectFor (s.retiredIds (s.namedByRetireAll a))).frame.setWidth 32)
        (epochField ((s.retire (s.namedByRetireAll a) (some .released)).1.effectFor
          (s.retiredIds (s.namedByRetireAll a))).epoch)) := by
  unfold State.performRetireAll
  rw [if_pos (by rw [isStation_iff]; omega)]
  rfl

/-- Every record that RETIRE_ALL names is retired. -/
theorem retiredIds_namedByRetireAll (a : Nat) (s : State) : s.retiredIds (s.namedByRetireAll a) = s.namedByRetireAll a := by
  unfold State.retiredIds State.namedByRetireAll
  refine List.filter_congr (fun i hi => ?_)
  rw [Bool.eq_iff_iff, Bool.and_eq_true, List.contains_iff_mem, List.mem_filter, Bool.and_eq_true]
  exact ⟨fun h => h.1.2, fun h => ⟨⟨hi, h⟩, h.1⟩⟩

/-- A retire claim that names no grant changes nothing. -/
theorem retire_nil (why : Option RevokeReason) (s : State) : s.retire [] why = (s, []) := by
  have hids : s.retiredIds [] = [] := by simp [State.retiredIds]
  rw [retire_eq, State.retiring, hids]
  exact Prod.ext (complete_nil s) rfl

/-- The effective frame for grants: the OPEN epoch's E if its list names one, else the SEALED epoch's, else N (R43, R168). -/
theorem effectFor_spec (ids : List Nat) (s : State) :
    (∀ o, s.map.openEpoch = some o → ids.any (fun i => o.names i) = true →
        (s.effectFor ids).frame = o.effective ∧ (s.effectFor ids).epoch = some o.number)
      ∧ (∀ o, s.map.openEpoch.any (fun o => ids.any (fun i => o.names i)) = false → s.map.sealedEpoch = some o →
          ids.any (fun i => o.names i) = true →
          (s.effectFor ids).frame = o.effective ∧ (s.effectFor ids).epoch = some o.number)
      ∧ (s.map.openEpoch.any (fun o => ids.any (fun i => o.names i)) = false →
          s.map.sealedEpoch.any (fun o => ids.any (fun i => o.names i)) = false →
          (s.effectFor ids).frame = s.timer.nextFrame ∧ (s.effectFor ids).epoch = none) := by
  have hno : ∀ {o : Option Epoch}, o.any (fun o => ids.any (fun i => o.names i)) = false →
      o.filter (fun e => ids.any (fun i => e.names i)) = none := fun {o} h => by
    cases o with
    | none => rfl
    | some x => simpa using h
  have hyes : ∀ {o : Epoch}, ids.any (fun i => o.names i) = true →
      (some o).filter (fun e => ids.any (fun i => e.names i)) = some o := fun {o} h => if_pos h
  refine ⟨fun o ho hn => ?_, fun o hopen ho hn => ?_, fun hopen hsealed => ?_⟩
  · unfold State.effectFor
    rw [ho, hyes hn]
    exact ⟨rfl, rfl⟩
  · unfold State.effectFor
    rw [hno hopen, ho, hyes hn]
    exact ⟨rfl, rfl⟩
  · unfold State.effectFor
    rw [hno hopen, hno hsealed]
    exact ⟨rfl, rfl⟩

theorem setWidth_frame_inj {f g : BitVec 16} (h : f.setWidth 32 = g.setWidth 32) : f = g := by
  rw [← (frameWord_fields f).1, h, (frameWord_fields g).1]

theorem epochField_inj {k l : Option (BitVec 8)} (h : epochField k = epochField l) : k = l := by
  obtain ⟨hk, hks, -⟩ := epochField_fields k
  obtain ⟨hl, hls, -⟩ := epochField_fields l
  rw [h] at hk hks
  have hsome := hks.symm.trans hls
  have hval := hk.symm.trans hl
  cases k with
  | none =>
    cases l with
    | none => rfl
    | some y => nomatch hsome
  | some x =>
    cases l with
    | none => nomatch hsome
    | some y => exact congrArg some hval

/-! ## RENEW (R93, R94, R169) -/

theorem performRenew_fails {h : Handle} {l : Option (BitVec 16)} (hp : s.handlePasses h = false) :
    s.performRenew h l = (s, .refused .staleHandle) := by
  unfold State.performRenew
  exact if_neg (Bool.eq_false_iff.1 hp)

theorem performRenew_draining {h : Handle} {l : Option (BitVec 16)} (hp : s.handlePasses h = true)
    (hd : (s.grant h.index.toNat).state = .draining) : s.performRenew h l = (s, .refused .retiring) := by
  unfold State.performRenew
  rw [if_pos hp, if_pos hd]

theorem performRenew_renews {h : Handle} {l : Option (BitVec 16)} (hp : s.handlePasses h = true)
    (hd : (s.grant h.index.toNat).state ≠ .draining) : s.performRenew h l = (s.renewGrant h.index.toNat l,
      .ok (handleWord h) (((s.renewGrant h.index.toNat l).grant h.index.toNat).leaseRemaining.setWidth 32) 0) := by
  unfold State.performRenew
  rw [if_pos hp, if_neg hd]

theorem renewGrant_eq (i : Nat) (l : Option (BitVec 16)) (s : State) : s.renewGrant i l =
    (s.updGrant i (Grant.renewed l)).noticeOwner i (.renewed (s.handle i) (l.getD (s.grant i).leaseReload)) := by
  unfold State.renewGrant
  have hg : (s.updGrant i (Grant.renewed l)).grant i = (s.grant i).renewed l := by rw [State.grant_updGrant, if_pos rfl]
  have hh : (s.updGrant i (Grant.renewed l)).handle i = s.handle i := by
    unfold State.handle
    rw [hg]
    rfl
  dsimp only
  rw [hh, hg]
  rfl

theorem noticeOnly_renewGrant (i : Nat) (l : Option (BitVec 16)) (s : State) :
    NoticeOnly (s.updGrant i (Grant.renewed l)) (s.renewGrant i l) := by
  rw [renewGrant_eq]
  exact noticeOnly_noticeOwner _ _ _

theorem grant_renewGrant (i : Nat) (l : Option (BitVec 16)) (s : State) (j : Nat) : (s.renewGrant i l).grant j =
    if j = i then (s.grant i).renewed l else s.grant j := by
  rw [(noticeOnly_renewGrant i l s).grant, State.grant_updGrant]

theorem noticeOwner_eq {i a : Nat} (ho : (s.grant i).owner = some a) (n : Notice) : s.noticeOwner i n = s.handNotice a n := by
  unfold State.noticeOwner
  rw [ho]

theorem renewGrant_tells {i a : Nat} {l : Option (BitVec 16)} (ho : (s.grant i).owner = some a) : s.renewGrant i l =
    (s.updGrant i (Grant.renewed l)).handNotice a (.renewed (s.handle i) (l.getD (s.grant i).leaseReload)) := by
  rw [renewGrant_eq]
  refine noticeOwner_eq ?_ _
  rw [State.grant_updGrant, if_pos rfl]
  exact ho

/-- What a notice does is seen in the station's presence, the mailboxes and the flags alone. -/
theorem handNotice_congr {a : Nat} (hp : (t.station a).state.present = (s.station a).state.present)
    (hm : t.mailboxes = s.mailboxes) (hi : t.ints = s.ints) (n : Notice) :
    (t.handNotice a n).mailboxes = (s.handNotice a n).mailboxes ∧ (t.handNotice a n).ints = (s.handNotice a n).ints := by
  have hmb : t.mailbox a = s.mailbox a := State.mailbox_congr hm a
  unfold State.handNotice
  rw [hp, hmb]
  split
  · split
    · simp only [State.raise, State.updMailbox, hm, hi, hmb, and_self]
    · simp only [State.updMailbox, hm, hi, hmb, and_self]
  · exact ⟨hm, hi⟩

/-- A notice for a queue that is full (R137). -/
theorem handNotice_full {a : Nat} {n : Notice} (h : (s.station a).state.present = true)
    (hfull : Config.noticeLimit ≤ (s.mailbox a).queue.length) : s.handNotice a n =
      (s.updMailbox a (fun m => { m with queue := markSyncLost m.queue })).raise .noticeOverrun := by
  unfold State.handNotice
  rw [if_pos h, if_pos hfull]

theorem mailbox_handNotice_full {a : Nat} {n : Notice} (h : (s.station a).state.present = true)
    (hfull : Config.noticeLimit ≤ (s.mailbox a).queue.length) :
    (s.handNotice a n).mailbox a = { s.mailbox a with queue := markSyncLost (s.mailbox a).queue } := by
  rw [handNotice_full h hfull]
  have hsame : (s.updMailbox a (fun m => { m with queue := markSyncLost m.queue })).mailbox a
      = { s.mailbox a with queue := markSyncLost (s.mailbox a).queue } := by
    rw [State.mailbox_updMailbox, if_pos rfl]
  exact hsame

end Sys2Proof.Machine

namespace Sys2Proof.Proofs
open Sys2Proof.Machine

/-- Settles O45. -/
theorem releaseRetires : Obligations.ReleaseRetires := by
  unfold Obligations.ReleaseRetires
  intro s head h hready hport
  obtain ⟨hcode, hop, htag, -⟩ := Quad.head_fields 3 head _ _ _ (e := handleEntry 3 head h) rfl
  have hsame := sameRecords_clearSuspension (handleEntry 3 head h) s
  have hperform := perform_release (s := s.clearSuspension (handleEntry 3 head h)) hop
  rw [handle_handleEntry] at hperform
  refine ⟨fun hfail => ?_, fun hpass hdrain => ?_, fun hpass hr => ?_⟩
  · rw [performRelease_fails (by rw [hsame.handlePasses]; exact hfail)] at hperform
    exact ⟨_, refuses_of_refused 3 head _ _ _ rfl rfl, exec_answered rfl hready hport hperform⟩
  · rw [performRelease_draining (by rw [hsame.handlePasses]; exact hpass) (by rw [hsame.grant]; exact hdrain)] at hperform
    exact ⟨_, refuses_of_refused 3 head _ _ _ rfl rfl, exec_answered rfl hready hport hperform⟩
  · obtain ⟨-, -, hdrain⟩ := retirable_ne hr.2.1
    have hr' := hsame.canRetire.2 hr
    rw [performRelease_retires (by rw [hsame.handlePasses]; exact hpass) (by rw [hsame.grant]; exact hdrain)] at hperform
    have hclaim := claimOnly_retire [h.index.toNat] (some .released) (s.clearSuspension (handleEntry 3 head h))
    have hans := sameRecords_answeredAfter (handleEntry 3 head h)
      (.placed h ((State.retire [h.index.toNat] (some .released) (s.clearSuspension (handleEntry 3 head h))).1.effectFor
        [h.index.toNat])) s
      (State.retire [h.index.toNat] (some .released) (s.clearSuspension (handleEntry 3 head h))).1
    refine ⟨_, _, exec_claimed rfl hready hport hperform hclaim.port, ?_, ?_, rfl, ?_, ?_, ?_, ?_, fun a ho hp hroom => ?_⟩
    · have hto := retiredTo_retire hr' (some .released)
      exact SameRecords.retiredTo hsame.symm hans hto
    · have hplaces := places_resultEntry (handleEntry 3 head h) h
        ((State.retire [h.index.toNat] (some .released) (s.clearSuspension (handleEntry 3 head h))).1.effectFor
          [h.index.toNat])
      rw [hcode, htag] at hplaces
      exact hplaces
    · exact (Interrupts.isSet_raise _ _ _).trans (by simp)
    · exact (Interrupts.isFresh_raise _ _ _).trans (by simp)
    · exact hclaim.timer.trans hsame.timer
    · refine hclaim.engine.trans ?_
      rw [clearSuspension_eq]
    · have hq := queues_retire_one hr' .released (by rw [hsame.grant]; exact ho)
      rw [hsame.handle, handle_of_passes hpass] at hq
      exact queues_answered hq hp hroom

/-- Settles O46. -/
theorem retireAllRetires : Obligations.RetireAllRetires := by
  unfold Obligations.RetireAllRetires
  intro s head named hready hport hnamed
  obtain ⟨hcode, hop, htag, hstation, -⟩ := Quad.head_fields 7 head 0 0 0 (e := plainEntry 7 head) rfl
  have hsame := sameRecords_clearSuspension (plainEntry 7 head) s
  have hperform := perform_retireAll (s := s.clearSuspension (plainEntry 7 head)) hop
  have hids : (s.clearSuspension (plainEntry 7 head)).namedByRetireAll head.station.toNat = named := by
    rw [hnamed]
    unfold State.namedByRetireAll
    simp only [hsame.grant]
    rfl
  have hretired : (s.clearSuspension (plainEntry 7 head)).retiredIds named = named := by
    rw [← hids, retiredIds_namedByRetireAll]
  rw [hstation] at hperform
  refine ⟨fun hout => ?_, fun hin => ?_, fun hin hnone => ?_⟩
  · rw [performRetireAll_fails hout] at hperform
    exact ⟨_, refuses_of_refused 7 head _ _ _ rfl rfl, exec_answered rfl hready hport hperform⟩
  · rw [performRetireAll_retires hin, hids, hretired] at hperform
    have hclaim := claimOnly_retire named (some .released) (s.clearSuspension (plainEntry 7 head))
    have hmaps := maps_retire named (some .released) (s.clearSuspension (plainEntry 7 head))
    have hplan := planAt_retire named (some .released) (s.clearSuspension (plainEntry 7 head))
    have hqueues := queues_retire named .released (s.clearSuspension (plainEntry 7 head))
    have hother : ∀ i, i ∉ named →
        (State.retire named (some .released) (s.clearSuspension (plainEntry 7 head))).1.grant i = s.grant i := fun i hi =>
      (grant_retire_other (by rw [hretired]; exact hi) (some .released)).trans (hsame.grant i)
    have hdrains : ∀ i ∈ named, s.canRetire i →
        s.drainsOrFrees i (State.retire named (some .released) (s.clearSuspension (plainEntry 7 head))).1 := fun i hi hr =>
      SameRecords.drainsOrFrees hsame.symm (t := (State.retire named (some .released) (s.clearSuspension (plainEntry 7 head))).1)
        ⟨rfl, rfl, rfl, rfl, rfl⟩ (drainsOrFrees_retire hi (hsame.canRetire.2 hr) (some .released))
    rw [hretired] at hplan hqueues
    simp only [hsame.grant, hsame.handle, hsame.planSlots, hsame.planAt] at hplan hqueues
    generalize hu : (State.retire named (some .released) (s.clearSuspension (plainEntry 7 head))).1 = u
      at hperform hclaim hmaps hplan hqueues hother hdrains
    have hexec := exec_claimed (c := .retireAll head) rfl hready hport hperform hclaim.port
    have htimer : u.timer = s.timer := hclaim.timer.trans hsame.timer
    obtain ⟨hopen, hsealed, hneither⟩ := effectFor_spec named u
    refine ⟨_, _, hexec, headed_ok 7 head _ _ _ rfl 0 _, rfl, rfl, hplan, hother, fun hr i hi => hdrains i hi (hr i hi),
      fun a => queues_answered (hqueues a), ?_, ?_, ?_, ?_, ?_⟩
    · intro f k hf hk
      have hframe := setWidth_frame_inj hf
      have hepoch := epochField_inj hk
      rw [← hframe, ← hepoch, ← htimer]
      exact ⟨hopen, hsealed, hneither⟩
    · refine ⟨(frameWord_fields _).2, (epochField_fields _).2.2, fun hz => ?_⟩
      have hnone := (epochField_fields (u.effectFor named).epoch).2.1.symm.trans hz
      exact (congrArg epochField (Option.not_isSome_iff_eq_none.1 (Bool.eq_false_iff.1 hnone))).trans rfl
    · exact hmaps.1.trans (by rw [hsame.map])
    · exact hclaim.commitCounter.trans hsame.commitCounter
    · exact hclaim.engine.trans (by rw [clearSuspension_eq])
  · rw [performRetireAll_retires hin, hids, hretired, hnone, retire_nil] at hperform
    have hnames : ∀ o : Option Epoch, o.any (fun o => ([] : List Nat).any (fun i => o.names i)) = false := fun o => by
      cases o <;> rfl
    obtain ⟨hframe, hepoch⟩ := (effectFor_spec [] (s.clearSuspension (plainEntry 7 head))).2.2 (hnames _) (hnames _)
    refine ⟨_, headed_ok 7 head _ _ _ rfl 0 _, rfl, ?_, ?_, exec_answered rfl hready hport hperform⟩
    · exact congrArg (BitVec.setWidth 32) (hframe.trans (by rw [hsame.timer]))
    · exact congrArg epochField hepoch

/-- Settles O47. -/
theorem renewRequestsLoadTheLease : Obligations.RenewRequestsLoadTheLease := by
  unfold Obligations.RenewRequestsLoadTheLease
  intro s head h given lease hready hport
  obtain ⟨hcode, hop, htag, -⟩ := Quad.head_fields 4 head _ _ _ (e := renewEntry head h given lease) rfl
  obtain ⟨-, ⟨hhandle, hgiven, hlease⟩, -⟩ := entry_fields head h 0 given false lease 0 0
  have hsame := sameRecords_clearSuspension (renewEntry head h given lease) s
  have hperform := perform_renew (s := s.clearSuspension (renewEntry head h given lease)) hop
  rw [hhandle, hgiven, hlease] at hperform
  refine ⟨fun hfail => ?_, fun hpass hdrain => ?_, fun hpass hdrain r hr => ?_⟩
  · rw [performRenew_fails (by rw [hsame.handlePasses]; exact hfail)] at hperform
    exact ⟨_, refuses_of_refused 4 head _ _ _ rfl rfl, exec_answered rfl hready hport hperform⟩
  · rw [performRenew_draining (by rw [hsame.handlePasses]; exact hpass) (by rw [hsame.grant]; exact hdrain)] at hperform
    exact ⟨_, refuses_of_refused 4 head _ _ _ rfl rfl, exec_answered rfl hready hport hperform⟩
  · rw [performRenew_renews (by rw [hsame.handlePasses]; exact hpass) (by rw [hsame.grant]; exact hdrain)] at hperform
    have hreload : (if given = true then some lease else none).getD (s.grant h.index.toNat).leaseReload = r := by
      rw [hr]
      cases given <;> rfl
    generalize (if given = true then some lease else none) = l at hperform hreload
    have hgrant := grant_renewGrant h.index.toNat l (s.clearSuspension (renewEntry head h given lease))
    have honly := noticeOnly_renewGrant h.index.toNat l (s.clearSuspension (renewEntry head h given lease))
    have htells : ∀ a, (s.grant h.index.toNat).owner = some a →
        (State.renewGrant h.index.toNat l (s.clearSuspension (renewEntry head h given lease))).mailboxes
            = (s.handNotice a (.renewed h r)).mailboxes
          ∧ (State.renewGrant h.index.toNat l (s.clearSuspension (renewEntry head h given lease))).ints
            = (s.handNotice a (.renewed h r)).ints := fun a ho => by
      rw [renewGrant_tells (by rw [hsame.grant]; exact ho), hsame.handle, handle_of_passes hpass, hsame.grant, hreload]
      refine handNotice_congr ?_ ?_ ?_ _
      · exact congrArg StationState.present (state_clearSuspension _ s a)
      · rw [State.mailboxes_updGrant, clearSuspension_eq]
      · rw [State.ints_updGrant, clearSuspension_eq]
    simp only [hsame.grant, Grant.renewed, hreload] at hgrant
    have hclaim : ClaimOnly (s.clearSuspension (renewEntry head h given lease))
        (State.renewGrant h.index.toNat l (s.clearSuspension (renewEntry head h given lease))) :=
      (claimOnly_updGrant _ _).trans honly.claimOnly
    have hself := (hgrant h.index.toNat).trans (if_pos rfl)
    have hexec := exec_claimed (c := .renew head h given lease) rfl hready hport hperform hclaim.port
    generalize hu : State.renewGrant h.index.toNat l (s.clearSuspension (renewEntry head h given lease)) = u at *
    have hbox : ∀ a, (s.grant h.index.toNat).owner = some a → ∀ b, u.mailbox b = (s.handNotice a (.renewed h r)).mailbox b :=
      fun a ho b => State.mailbox_congr (htells a ho).1 b
    refine ⟨_, _, hexec, headed_ok 4 head _ _ _ rfl 0 _, rfl, ?_, rfl, rfl, hself,
      fun j hj => (hgrant j).trans (if_neg hj), fun a ho hp => ⟨fun hroom => ?_, fun hfull => ?_, fun b hb => ?_⟩, ?_⟩
    · exact congrArg (fun g : Grant => g.leaseRemaining.setWidth 32) hself
    · exact (congrArg Mailbox.queue (hbox a ho a)).trans (queue_handNotice hp hroom)
    · have hmark : u.mailbox a = { s.mailbox a with queue := markSyncLost (s.mailbox a).queue } := by
        rw [hbox a ho a, mailbox_handNotice_full hp hfull]
      have hhead : (u.mailbox a).head = (s.mailbox a).head := by rw [hmark]
      refine ⟨congrArg Mailbox.queue hmark, hhead, ?_⟩
      have hset : (u.ints.raise .result).isSet .noticeOverrun = true := by
        rw [(htells a ho).2, handNotice_full hp hfull]
        simp [State.raise]
      exact hset
    · exact (hbox a ho b).trans (mailbox_handNotice_other hb _)
    · have hshape : u = { s.clearSuspension (renewEntry head h given lease) with
          grants := u.grants, mailboxes := u.mailboxes, ints := u.ints } := by
        unfold NoticeOnly at honly
        rw [honly]
        rfl
      unfold State.answeredAfter
      rw [hshape]

end Sys2Proof.Proofs
end

section
/-! The Station Roster's transitions: a failed join, the entry to LEAVING, and EVICT and SET_STATION at the Request Port (O48;
R97, R104, R107 to R111, R170). -/

namespace Sys2Proof.Machine

variable {s t u : State} {a : Nat}

/-! ## Flags that stay set -/

theorem kept_flag (f : Flag) : Kept (fun s => s.ints.isSet f = true ∧ s.ints.isFresh f = true) where
  grant _ _ _ h := h
  station _ _ _ h := h
  ask _ _ _ h := h
  mailbox _ _ _ _ h := h
  flag g s h := by
    obtain ⟨hset, hfresh⟩ := h
    refine ⟨(Interrupts.isSet_raise s.ints g f).trans ?_, (Interrupts.isFresh_raise s.ints g f).trans ?_⟩
    · rw [hset, Bool.true_or]
    · rw [hfresh, Bool.true_or]
  freeQueue _ _ h := h
  askQueue _ _ _ h := h
  record n y s _ h := by
    show s.openIfNone.ints.isSet f = true ∧ s.openIfNone.ints.isFresh f = true
    rw [State.ints_openIfNone]
    exact h

theorem flag_raise (f : Flag) (s : State) : (s.raise f).ints.isSet f = true ∧ (s.raise f).ints.isFresh f = true :=
  ⟨(Interrupts.isSet_raise _ _ _).trans (by simp), (Interrupts.isFresh_raise _ _ _).trans (by simp)⟩

/-! ## A failed join (R104, R109) -/

/-- The station record after a return to ABSENT for this reason. -/
def Station.gone (why : LeaveReason) (r : Station) : Station :=
  { r with leaveReason := some why, suspended := false, missed := 0, state := .absent }

theorem station_enterAbsent (a : Nat) (s : State) (b : Nat) : (s.enterAbsent a).station b =
    if b = a then { s.station a with suspended := false, missed := 0, state := .absent } else s.station b := by
  unfold State.enterAbsent
  have hempty : ∀ c, (s.emptyQueue a).station c = s.station c := fun c => rfl
  rw [station_moveStation, State.station_updStation, State.station_updStation, if_pos rfl, hempty, hempty]
  split <;> rfl

theorem mailbox_enterAbsent (a : Nat) (s : State) (b : Nat) : (s.enterAbsent a).mailbox b =
    if b = a then (s.mailbox a).emptied else s.mailbox b := by
  rw [State.mailbox_congr (s := s.updMailbox a Mailbox.emptied)
    (by simp [State.enterAbsent, State.moveStation, State.emptyQueue]), State.mailbox_updMailbox]

theorem enterAbsent_eq (a : Nat) (s : State) : s.enterAbsent a =
    { s with stations := (s.enterAbsent a).stations, mailboxes := (s.enterAbsent a).mailboxes
             ints := s.ints.raise .station } := by
  unfold State.enterAbsent State.moveStation State.emptyQueue State.updStation State.updMailbox State.raise
  rfl

theorem failJoin_eq (a : Nat) (why : LeaveReason) (s : State) : s.failJoin a why =
    { s with stations := (s.failJoin a why).stations, mailboxes := (s.failJoin a why).mailboxes
             ints := s.ints.raise .station } := by
  unfold State.failJoin
  rw [enterAbsent_eq]
  rfl

theorem station_failJoin (a : Nat) (why : LeaveReason) (s : State) (b : Nat) :
    (s.failJoin a why).station b = if b = a then (s.station a).gone why else s.station b := by
  unfold State.failJoin
  rw [station_enterAbsent, State.station_updStation, State.station_updStation, if_pos rfl]
  by_cases hb : b = a
  · rw [if_pos hb, if_pos hb]
    rfl
  · rw [if_neg hb, if_neg hb, if_neg hb]

theorem mailbox_failJoin (a : Nat) (why : LeaveReason) (s : State) (b : Nat) :
    (s.failJoin a why).mailbox b = if b = a then (s.mailbox a).emptied else s.mailbox b :=
  mailbox_enterAbsent a (s.updStation a (fun r => { r with leaveReason := some why })) b

/-! ## The entry to LEAVING (R107) -/

/-- Steps 1 and 2 of R107. -/
def State.leaving (a : Nat) (why : LeaveReason) (s : State) : State :=
  ((s.updStation a (fun r => { r with leaveReason := some why })).moveStation a .leaving).emptyQueue a

/-- Steps 1 to 3 of R107. -/
def State.toLeaving (a : Nat) (why : LeaveReason) (s : State) : State := (s.leaving a why).dropWaitingAsk a

theorem enterLeaving_eq (a : Nat) (why : LeaveReason) (s : State) : s.enterLeaving a why =
    (((s.toLeaving a why).retire ((s.toLeaving a why).retirableOf a) none).1).departIfDone a := rfl

/-- The asks after the waiting ask of a station is dropped (R107 step 3). -/
theorem dropWaitingAsk_eq (a : Nat) (s : State) : s.dropWaitingAsk a =
    { s with asks := (s.dropWaitingAsk a).asks, askQueue := (s.dropWaitingAsk a).askQueue } := by
  unfold State.dropWaitingAsk
  split <;> rfl

theorem dropWaitingAsk_waiting {q : BitVec 4} (h : (s.ask a).status = .waiting q) : s.dropWaitingAsk a =
    { s.updAsk a (fun k => { k with status := .none }) with
      askQueue := s.askQueue.filter (fun x => x.station != a) } := by
  unfold State.dropWaitingAsk
  rw [h]
  rfl

theorem dropWaitingAsk_of_not (h : ∀ q, (s.ask a).status ≠ .waiting q) : s.dropWaitingAsk a = s := by
  unfold State.dropWaitingAsk
  split
  · exact absurd ‹_› (h _)
  · rfl
  · rfl

theorem ask_dropWaitingAsk_other {b : Nat} (hb : b ≠ a) (s : State) : (s.dropWaitingAsk a).ask b = s.ask b := by
  by_cases h : ∃ q, (s.ask a).status = .waiting q
  · obtain ⟨q, hq⟩ := h
    rw [dropWaitingAsk_waiting hq]
    exact (State.ask_updAsk s a b (fun k => { k with status := .none })).trans (if_neg hb)
  · rw [dropWaitingAsk_of_not (fun q hq => h ⟨q, hq⟩)]

theorem lastAnswered_dropWaitingAsk (s : State) (a : Nat) :
    ((s.dropWaitingAsk a).ask a).lastAnswered = (s.ask a).lastAnswered := by
  by_cases h : ∃ q, (s.ask a).status = .waiting q
  · obtain ⟨q, hq⟩ := h
    rw [dropWaitingAsk_waiting hq]
    have hself := State.ask_updAsk_same s a (fun k => { k with status := .none })
    exact (congrArg AskRecord.lastAnswered hself :)
  · rw [dropWaitingAsk_of_not (fun q hq => h ⟨q, hq⟩)]

section toLeaving
variable (why : LeaveReason)

theorem toLeaving_eq (a : Nat) (s : State) : s.toLeaving a why =
    { s.leaving a why with asks := (s.toLeaving a why).asks, askQueue := (s.toLeaving a why).askQueue } :=
  dropWaitingAsk_eq a _

theorem station_toLeaving (a : Nat) (s : State) (b : Nat) : (s.toLeaving a why).station b =
    if b = a then { s.station a with leaveReason := some why, state := .leaving } else s.station b := by
  have hdrop : (s.toLeaving a why).station b =
      ((s.updStation a (fun r => { r with leaveReason := some why })).moveStation a .leaving).station b :=
    State.station_congr (by rw [toLeaving_eq]; rfl) b
  rw [hdrop, station_moveStation, State.station_updStation, State.station_updStation, if_pos rfl]
  split <;> rfl

theorem mailbox_toLeaving (a : Nat) (s : State) (b : Nat) : (s.toLeaving a why).mailbox b =
    if b = a then (s.mailbox a).emptied else s.mailbox b := by
  have hdrop : (s.toLeaving a why).mailbox b = (s.emptyQueue a).mailbox b :=
    State.mailbox_congr (by rw [toLeaving_eq]; rfl) b
  rw [hdrop]
  exact State.mailbox_updMailbox s a b Mailbox.emptied

theorem sameRecords_updStation (a : Nat) (f : Station → Station) (s : State) : SameRecords s (s.updStation a f) :=
  ⟨rfl, rfl, rfl, rfl, rfl⟩

theorem sameRecords_updMailbox (a : Nat) (f : Mailbox → Mailbox) (s : State) : SameRecords s (s.updMailbox a f) :=
  ⟨rfl, rfl, rfl, rfl, rfl⟩

theorem sameRecords_raise (f : Flag) (s : State) : SameRecords s (s.raise f) := ⟨rfl, rfl, rfl, rfl, rfl⟩

theorem sameRecords_leaving (a : Nat) (s : State) : SameRecords s (s.leaving a why) :=
  (((sameRecords_updStation a (fun r => { r with leaveReason := some why }) s).trans
    (sameRecords_updStation a (fun r => { r with state := .leaving }) _)).trans (sameRecords_raise .station _)).trans
    (sameRecords_updMailbox a Mailbox.emptied _)

theorem sameRecords_dropWaitingAsk (a : Nat) (s : State) : SameRecords s (s.dropWaitingAsk a) := by
  unfold State.dropWaitingAsk
  split <;> exact ⟨rfl, rfl, rfl, rfl, rfl⟩

theorem sameRecords_toLeaving (a : Nat) (s : State) : SameRecords s (s.toLeaving a why) :=
  (sameRecords_leaving why a s).trans (sameRecords_dropWaitingAsk a _)

end toLeaving

theorem mem_retirableOf {i : Nat} :
    i ∈ s.retirableOf a ↔ i < Config.grantCount ∧ (s.grant i).owner = some a ∧ (s.grant i).state.retirable = true := by
  simp [State.retirableOf]

/-- What becomes of a station record on the entry to LEAVING: LEAVING with the records it still holds, or ABSENT with none
(R107, R108). -/
def Station.LeftFor (why : LeaveReason) (r q : Station) : Prop :=
  (q.held ≠ 0 ∧ q = { r with leaveReason := some why, state := .leaving, held := q.held, planned := q.planned })
    ∨ (q.held = 0 ∧ q = { r.gone why with held := q.held, planned := q.planned })

/-- What the entry of station `a` to LEAVING does (R107). -/
structure State.Leaves (a : Nat) (why : LeaveReason) (s t : State) : Prop where
  claim : ClaimOnly (s.toLeaving a why) t
  station : Station.LeftFor why (s.station a) (t.station a)
  mailbox : (t.mailbox a).queue = []
  other : ∀ b, b ≠ a → t.station b = s.station b ∧ t.mailbox b = s.mailbox b
  flag : t.ints.isSet .station = true ∧ t.ints.isFresh .station = true
  active : t.map.active = s.map.active
  plan : ∀ n i, i < Config.grantCount → n ∈ s.planSlots i → (s.grant i).owner = some a →
    (s.grant i).state.retirable = true → t.planAt n = none

theorem leftFor_departIfDone {why : LeaveReason} {r : Station}
    (h : Station.ClaimedTo { r with leaveReason := some why, state := .leaving } (s.station a)) :
    Station.LeftFor why r ((s.departIfDone a).station a) := by
  rw [station_departIfDone]
  rcases h.stays_or_departs with hq | ⟨-, hq⟩
  · have hl : (s.station a).state = .leaving := by rw [hq]
    by_cases hz : (s.station a).held = 0
    · rw [if_pos ⟨rfl, hl, hz⟩]
      refine .inr ⟨hz, ?_⟩
      rw [hq]
      rfl
    · rw [if_neg (fun k => hz k.2.2)]
      exact .inl ⟨hz, hq⟩
  · rw [if_neg (fun k => by rw [hq] at k; nomatch k.2.1)]
    refine .inr ⟨by rw [hq], ?_⟩
    rw [hq]
    rfl

theorem leaves_enterLeaving (a : Nat) (why : LeaveReason) (s : State) : s.Leaves a why (s.enterLeaving a why) := by
  have hsame := sameRecords_toLeaving why a s
  have hflag : (s.toLeaving a why).ints.isSet .station = true ∧ (s.toLeaving a why).ints.isFresh .station = true := by
    rw [toLeaving_eq]
    exact flag_raise .station s
  have hst := station_toLeaving why a s
  have hmb := mailbox_toLeaving why a s
  rw [enterLeaving_eq]
  generalize hv : s.toLeaving a why = v at hsame hflag hst hmb
  have hclaim := claimedTo_retire (v.retirableOf a) none v a
  have hkept := (kept_flag .station).retire (v.retirableOf a) none hflag
  have hmaps := maps_retire (v.retirableOf a) none v
  have hplan := planAt_retire (v.retirableOf a) none v
  have honly := claimOnly_retire (v.retirableOf a) none v
  have hothers := fun {b : Nat} (hb : b ≠ a) => retire_other (s := v) (named := v.retirableOf a) (a := b)
    (fun i hi ho => hb (Option.some.inj (ho.symm.trans (mem_retirableOf.1 (mem_retiredIds.1 hi).2.1).2.1))) none
  have hempty : (((v.retire (v.retirableOf a) none).1).mailbox a).queue = [] := by
    rw [retire_silent, State.retiring]
    rcases mailbox_complete (v.retiredIds (v.retirableOf a)) (v.clearPlans (v.retiredIds (v.retirableOf a))) a with
      hm | ⟨-, -, hm⟩
    · rw [hm, mailbox_clearPlans, hmb, if_pos rfl]
      rfl
    · rw [hm]
      rfl
  rw [hst a, if_pos rfl] at hclaim
  generalize (v.retire (v.retirableOf a) none).1 = w at hclaim hkept hmaps hplan honly hothers hempty
  refine ⟨hv ▸ honly.trans (claimOnly_departIfDone a), leftFor_departIfDone hclaim, ?_, fun b hb => ⟨?_, ?_⟩,
    (kept_flag .station).departIfDone a hkept, ?_, fun n i hlt hn ho hr => ?_⟩
  · rw [mailbox_departIfDone]
    split
    · rfl
    · exact hempty
  · rw [station_departIfDone, if_neg (fun k => hb k.1), (hothers hb).1, hst, if_neg hb]
  · rw [mailbox_departIfDone, if_neg (fun k => hb k.1), (hothers hb).2, hmb, if_neg hb]
  · rw [map_departIfDone, hmaps.1, hsame.map]
  · have hmem : i ∈ v.retiredIds (v.retirableOf a) := by
      rw [mem_retiredIds, mem_retirableOf, hsame.grant]
      exact ⟨hlt, ⟨hlt, ho, hr⟩, hr⟩
    unfold State.planAt at hplan ⊢
    rw [map_departIfDone, hplan, if_pos]
    rw [List.any_eq_true]
    exact ⟨i, hmem, by rw [List.contains_iff_mem, hsame.planSlots]; exact hn⟩

/-! ## What every departure has in common -/

/-- Station `a` is made to leave, or its join fails: what R104 and R107 have in common. -/
structure State.Ousts (a : Nat) (why : LeaveReason) (s t : State) : Prop where
  state : ((t.station a).state = .leaving ∧ (t.station a).held ≠ 0) ∨ (t.station a).state = .absent
  reason : (t.station a).leaveReason = some why
  rights : (t.station a).quota = (s.station a).quota ∧ (t.station a).maxClass = (s.station a).maxClass
    ∧ (t.station a).barred = (s.station a).barred
  mailbox : (t.mailbox a).queue = []
  other : ∀ b, b ≠ a → t.station b = s.station b ∧ t.mailbox b = s.mailbox b
  flag : t.ints.isSet .station = true ∧ t.ints.isFresh .station = true
  active : t.map.active = s.map.active
  commitCounter : t.commitCounter = s.commitCounter
  port : t.port = s.port
  timer : t.timer = s.timer

theorem State.Leaves.ousts {why : LeaveReason} (h : s.Leaves a why t) : s.Ousts a why t := by
  have hport : (s.toLeaving a why).port = s.port := by
    rw [toLeaving_eq]
    simp [State.leaving, State.emptyQueue, State.moveStation]
  have hrights : (t.station a).leaveReason = some why ∧ (t.station a).quota = (s.station a).quota
      ∧ (t.station a).maxClass = (s.station a).maxClass ∧ (t.station a).barred = (s.station a).barred := by
    rcases h.station with ⟨-, hq⟩ | ⟨-, hq⟩ <;> rw [hq] <;> exact ⟨rfl, rfl, rfl, rfl⟩
  refine ⟨?_, hrights.1, hrights.2, h.mailbox, h.other, h.flag, h.active,
    h.claim.commitCounter.trans (sameRecords_toLeaving why a s).commitCounter, h.claim.port.trans hport,
    h.claim.timer.trans (sameRecords_toLeaving why a s).timer⟩
  rcases h.station with ⟨hz, hq⟩ | ⟨hz, hq⟩
  · exact .inl ⟨by rw [hq], hz⟩
  · exact .inr (by rw [hq]; rfl)

theorem ousts_failJoin (a : Nat) (why : LeaveReason) (s : State) : s.Ousts a why (s.failJoin a why) := by
  have hst := station_failJoin a why s
  have hmb := mailbox_failJoin a why s
  have hself := (hst a).trans (if_pos rfl)
  have hbox := (hmb a).trans (if_pos rfl)
  refine ⟨.inr (by rw [hself]; rfl), by rw [hself]; rfl, by rw [hself]; exact ⟨rfl, rfl, rfl⟩, by rw [hbox]; rfl,
    fun b hb => ⟨(hst b).trans (if_neg hb), (hmb b).trans (if_neg hb)⟩, ?_, ?_, ?_, ?_, ?_⟩
  · rw [failJoin_eq]
    exact flag_raise .station s
  all_goals rw [failJoin_eq]

/-! ## EVICT and SET_STATION (R110, R111, R170) -/

theorem evictStation_of_gone (h : (s.station a).state.present = false) : s.evictStation a = s := by
  unfold State.evictStation
  split
  · rw [‹(s.station a).state = .member›] at h
    nomatch h
  · rw [‹(s.station a).state = .quiet›] at h
    nomatch h
  · rw [‹(s.station a).state = .joining›] at h
    nomatch h
  · rfl
  · rfl

theorem evictStation_of_joining (h : (s.station a).state = .joining) : s.evictStation a = s.failJoin a .evicted := by
  unfold State.evictStation
  rw [h]

theorem evictStation_of_membership (h : (s.station a).state = .member ∨ (s.station a).state = .quiet) :
    s.evictStation a = s.enterLeaving a .evicted := by
  unfold State.evictStation
  rcases h with h | h <;> rw [h]

theorem present_cases {x : StationState} (h : x.present = true) : x = .joining ∨ x = .member ∨ x = .quiet := by
  cases x with
  | joining => exact .inl rfl
  | member => exact .inr (.inl rfl)
  | quiet => exact .inr (.inr rfl)
  | absent => nomatch h
  | leaving => nomatch h

theorem ousts_evictStation (h : (s.station a).state.present = true) : s.Ousts a .evicted (s.evictStation a) := by
  rcases present_cases h with hj | hm
  · rw [evictStation_of_joining hj]
    exact ousts_failJoin a .evicted s
  · rw [evictStation_of_membership hm]
    exact (leaves_enterLeaving a .evicted s).ousts

theorem not_present_iff {x : StationState} : x.present = false ↔ x = .absent ∨ x = .leaving := by
  cases x <;> simp [StationState.present]

theorem performSetStation_fails {quota : BitVec 10} {cls : BitVec 2} {barred : Bool}
    (h : a = 0 ∨ 48 ≤ a ∨ 960 < quota.toNat) :
    s.performSetStation a quota cls barred = (s, .refused .badRequest) := by
  unfold State.performSetStation
  refine if_neg (fun k => ?_)
  obtain ⟨hst, hq⟩ := k
  rw [isStation_iff] at hst
  have hlimit : quota.toNat ≤ 960 := hq
  omega

/-- The station record after SET_STATION, before an eviction. -/
def State.setRights (a : Nat) (quota : BitVec 10) (cls : BitVec 2) (barred : Bool) (s : State) : State :=
  s.updStation a (fun r => { r with quota, maxClass := cls, barred })

theorem performSetStation_sets {quota : BitVec 10} {cls : BitVec 2} {barred : Bool} (h1 : 1 ≤ a) (h47 : a ≤ 47)
    (hq : quota.toNat ≤ 960) : s.performSetStation a quota cls barred =
      ((if barred && !(s.station a).barred then (s.setRights a quota cls barred).evictStation a
          else s.setRights a quota cls barred),
        .station ((if barred && !(s.station a).barred then (s.setRights a quota cls barred).evictStation a
          else s.setRights a quota cls barred).station a).state) := by
  unfold State.performSetStation
  rw [if_pos ⟨isStation_iff.2 ⟨h1, h47⟩, hq⟩]
  rfl

theorem station_setRights (quota : BitVec 10) (cls : BitVec 2) (barred : Bool) (b : Nat) :
    (s.setRights a quota cls barred).station b =
      if b = a then { s.station a with quota := quota, maxClass := cls, barred := barred } else s.station b :=
  State.station_updStation s a b (fun r => { r with quota, maxClass := cls, barred })

/-- SET_STATION evicts only where barred goes to yes (R111). -/
theorem setRights_kept {quota : BitVec 10} {cls : BitVec 2} {barred : Bool}
    (h : barred = false ∨ (s.station a).barred = true ∨ (s.station a).state = .absent ∨ (s.station a).state = .leaving) :
    (if barred && !(s.station a).barred then (s.setRights a quota cls barred).evictStation a
      else s.setRights a quota cls barred) = s.setRights a quota cls barred := by
  split
  · rename_i hb
    rw [Bool.and_eq_true, Bool.not_eq_true'] at hb
    refine evictStation_of_gone ?_
    rw [station_setRights, if_pos rfl]
    refine not_present_iff.2 ((h.resolve_left (fun k => ?_)).resolve_left (fun k => ?_))
    · exact Bool.false_ne_true (k.symm.trans hb.1)
    · exact Bool.false_ne_true (hb.2.symm.trans k)
  · rfl

theorem performEvict_fails (h : a = 0 ∨ 48 ≤ a) : s.performEvict a = (s, .refused .badRequest) := by
  unfold State.performEvict
  exact if_neg (fun k => by rw [isStation_iff] at k; omega)

theorem performEvict_gone (h1 : 1 ≤ a) (h47 : a ≤ 47) (h : (s.station a).state.present = false) :
    s.performEvict a = (s, .refused .notMember) := by
  unfold State.performEvict
  rw [if_pos (isStation_iff.2 ⟨h1, h47⟩), if_neg (Bool.eq_false_iff.1 h)]

theorem performEvict_evicts (h1 : 1 ≤ a) (h47 : a ≤ 47) (h : (s.station a).state.present = true) :
    s.performEvict a = (s.evictStation a, .station ((s.evictStation a).station a).state) := by
  unfold State.performEvict
  rw [if_pos (isStation_iff.2 ⟨h1, h47⟩), if_pos h]

theorem station_clearSuspension_other {e : Quad} {b : Nat} (h : b ≠ e.station) (s : State) :
    (s.clearSuspension e).station b = s.station b := by
  rw [station_clearSuspension]
  simp [h]

theorem flag_raised {f : Flag} (g : Flag) {x : Interrupts} (h : x.isSet f = true ∧ x.isFresh f = true) :
    (x.raise g).isSet f = true ∧ (x.raise g).isFresh f = true := by
  rw [Interrupts.isSet_raise, Interrupts.isFresh_raise, h.1, h.2]
  exact ⟨Bool.true_or _, Bool.true_or _⟩

end Sys2Proof.Machine

namespace Sys2Proof.Proofs
open Sys2Proof.Machine

/-- A SET_STATION that is carried out. -/
theorem setStation_answers {s : State} {head : RequestHead} {quota : BitVec 10} {cls : BitVec 2} {barred : Bool}
    {a : Nat} {e : Quad} (ha : a = head.station.toNat) (he : e = setStationEntry head quota cls barred)
    (hready : s.ready) (hport : s.portFree)
    (hperform : (s.clearSuspension e).perform e = State.answer e
      ((if barred && !((s.clearSuspension e).station a).barred then
            ((s.clearSuspension e).setRights a quota cls barred).evictStation a
          else (s.clearSuspension e).setRights a quota cls barred),
        .station ((if barred && !((s.clearSuspension e).station a).barred then
            ((s.clearSuspension e).setRights a quota cls barred).evictStation a
          else (s.clearSuspension e).setRights a quota cls barred).station a).state)) :
    ∃ (t : State) (q : Quad), exec (.setStation head quota cls barred) s = .next t
      ∧ q.headed 5 .ok 0 head.tag ∧ q.w1 = (t.station a).state.code.setWidth 32 ∧ q.w2 = 0 ∧ q.w3 = 0
      ∧ t.port = { s.port with staging := e, results := s.port.results ++ [q] }
      ∧ (t.station a).quota = quota ∧ (t.station a).maxClass = cls ∧ (t.station a).barred = barred
      ∧ (barred = false ∨ (s.station a).barred = true ∨ (s.station a).state = .absent ∨ (s.station a).state = .leaving →
        (t.station a).state = (s.station a).state ∧ (∀ b, b ≠ a → t.station b = s.station b)
          ∧ t = { s.clearSuspension e with stations := t.stations, port := t.port, ints := s.ints.raise .result })
      ∧ (barred = true → (s.station a).barred = false → (s.station a).state.present = true →
        ((t.station a).state = .leaving ∨ (t.station a).state = .absent)
          ∧ (t.station a).leaveReason = some .evicted ∧ (t.mailbox a).queue = []) := by
  have hstation : e.station = a := by
    rw [ha]
    exact (Quad.head_fields 5 head _ _ _ he).2.2.2.1
  have hrecord := fun b => station_setRights (s := s.clearSuspension e) (a := a) quota cls barred b
  have hbarred : ((s.clearSuspension e).station a).barred = (s.station a).barred := by rw [station_clearSuspension]
  have hstate := state_clearSuspension e s a
  have hkept := setRights_kept (s := s.clearSuspension e) (a := a) (quota := quota) (cls := cls) (barred := barred)
  rw [hbarred, hstate] at hkept
  by_cases h : barred = false ∨ (s.station a).barred = true ∨ (s.station a).state = .absent ∨ (s.station a).state = .leaving
  · rw [hbarred, hkept h] at hperform
    have hself := (hrecord a).trans (if_pos rfl)
    refine ⟨_, _, exec_claimed (by rw [he]; rfl) hready hport hperform (State.port_updStation _ _ _),
      headed_ok 5 head _ _ _ he 0 _, rfl, rfl, rfl, rfl,
      ?_, ?_, ?_, fun _ => ⟨?_, fun b hb => ?_, ?_⟩, fun h1 h2 h3 => absurd h ?_⟩
    · exact congrArg Station.quota hself
    · exact congrArg Station.maxClass hself
    · exact congrArg Station.barred hself
    · exact (congrArg Station.state hself).trans hstate
    · exact ((hrecord b).trans (if_neg hb)).trans (station_clearSuspension_other (by rw [hstation]; exact hb) s)
    · rw [State.answeredAfter, State.setRights, State.updStation, clearSuspension_eq]
    · rintro (k | k | k)
      · exact Bool.false_ne_true (k.symm.trans h1)
      · exact Bool.false_ne_true (h2.symm.trans k)
      · rw [not_present_iff.2 k] at h3
        nomatch h3
  · obtain ⟨hb, hnb, hab, hlv⟩ : barred = true ∧ (s.station a).barred = false ∧ (s.station a).state ≠ .absent
        ∧ (s.station a).state ≠ .leaving := by
      simpa only [not_or, Bool.not_eq_false, Bool.not_eq_true] using h
    have hp : (((s.clearSuspension e).setRights a quota cls barred).station a).state.present = true := by
      rw [hrecord, if_pos rfl]
      dsimp only
      rw [hstate]
      rw [← Bool.not_eq_false, not_present_iff]
      exact fun k => k.elim hab hlv
    have hout := ousts_evictStation hp
    rw [hbarred, if_pos (by rw [hb, hnb]; rfl)] at hperform
    have hexec := exec_claimed (c := .setStation head quota cls barred) (by rw [he]; rfl) hready hport hperform
      (hout.port.trans (State.port_updStation _ _ _))
    obtain ⟨hq, hc, hbar⟩ := hout.rights
    rw [hrecord, if_pos rfl] at hq hc hbar
    generalize State.evictStation a _ = u at hexec hout hq hc hbar
    refine ⟨_, _, hexec, headed_ok 5 head _ _ _ he 0 _, rfl, rfl, rfl, rfl, hq, hc, hbar, fun k => absurd k h,
      fun _ _ _ => ⟨hout.state.imp_left And.left, hout.reason, hout.mailbox⟩⟩

/-- Settles O48: an eviction acts on the one station; the two requests differ in what else they check and write. -/
theorem setStationAndEvict : Obligations.SetStationAndEvict := by
  unfold Obligations.SetStationAndEvict
  refine ⟨fun s head quota cls barred hready hport => ⟨fun hbad => ?_, fun h1 h47 hquota => ?_⟩,
    fun s head hready hport => ⟨fun hbad => ?_, fun h1 h47 => ⟨fun hgone => ?_, fun hpresent => ?_⟩⟩⟩
  · obtain ⟨-, hop, -, hstation, -⟩ := Quad.head_fields 5 head _ _ _ (e := setStationEntry head quota cls barred) rfl
    obtain ⟨-, -, ⟨hq, hc, hb⟩, -⟩ := entry_fields head ⟨0, 0⟩ 0 false barred 0 quota cls
    have hperform := perform_setStation (s := s.clearSuspension (setStationEntry head quota cls barred)) hop
    rw [hstation, hq, hc, hb, performSetStation_fails (hbad.imp_left (fun h => by rw [h]; rfl))] at hperform
    exact ⟨_, refuses_of_refused 5 head _ _ _ rfl rfl, exec_answered rfl hready hport hperform⟩
  · obtain ⟨-, hop, -, hstation, -⟩ := Quad.head_fields 5 head _ _ _ (e := setStationEntry head quota cls barred) rfl
    obtain ⟨-, -, ⟨hq, hc, hb⟩, -⟩ := entry_fields head ⟨0, 0⟩ 0 false barred 0 quota cls
    have hperform := perform_setStation (s := s.clearSuspension (setStationEntry head quota cls barred)) hop
    rw [hstation, hq, hc, hb, performSetStation_sets h1 h47 hquota] at hperform
    exact setStation_answers rfl rfl hready hport hperform
  · obtain ⟨-, hop, -, hstation, -⟩ := Quad.head_fields 6 head 0 0 0 (e := plainEntry 6 head) rfl
    have hperform := perform_evict (s := s.clearSuspension (plainEntry 6 head)) hop
    rw [hstation, performEvict_fails (hbad.imp_left (fun h => by rw [h]; rfl))] at hperform
    exact ⟨_, refuses_of_refused 6 head _ _ _ rfl rfl, exec_answered rfl hready hport hperform⟩
  · obtain ⟨-, hop, -, hstation, -⟩ := Quad.head_fields 6 head 0 0 0 (e := plainEntry 6 head) rfl
    have hperform := perform_evict (s := s.clearSuspension (plainEntry 6 head)) hop
    rw [hstation, performEvict_gone h1 h47 (by rw [state_clearSuspension]; exact not_present_iff.2 hgone)] at hperform
    exact ⟨_, refuses_of_refused 6 head _ _ _ rfl rfl, exec_answered rfl hready hport hperform⟩
  · obtain ⟨-, hop, -, hstation, -⟩ := Quad.head_fields 6 head 0 0 0 (e := plainEntry 6 head) rfl
    have hperform := perform_evict (s := s.clearSuspension (plainEntry 6 head)) hop
    have hp : ((s.clearSuspension (plainEntry 6 head)).station head.station.toNat).state.present = true := by
      rw [state_clearSuspension]
      exact hpresent
    rw [hstation, performEvict_evicts h1 h47 hp] at hperform
    have hout := ousts_evictStation hp
    have hexec := exec_claimed (c := .evict head) rfl hready hport hperform hout.port
    have hsame := sameRecords_clearSuspension (plainEntry 6 head) s
    have hjoins : (s.station head.station.toNat).state = .joining →
        ((State.evictStation head.station.toNat (s.clearSuspension (plainEntry 6 head))).station head.station.toNat).state
          = .absent := fun hj => by
      rw [evictStation_of_joining (by rw [state_clearSuspension]; exact hj), station_failJoin, if_pos rfl]
      rfl
    generalize State.evictStation head.station.toNat _ = u at hexec hout hjoins
    refine ⟨_, _, hexec, headed_ok 6 head _ _ _ rfl 0 _, rfl, rfl, rfl, rfl, hout.state, hjoins, hout.reason, hout.mailbox,
      ?_, fun b hb => ⟨?_, ?_⟩, ?_, ?_⟩
    · exact (flag_raised .result hout.flag).1
    · exact (hout.other b hb).1.trans (station_clearSuspension_other (by rw [hstation]; exact hb) s)
    · exact (hout.other b hb).2.trans (mailbox_clearSuspension _ s b)
    · exact hout.active.trans (by rw [hsame.map])
    · exact hout.commitCounter.trans hsame.commitCounter

end Sys2Proof.Proofs
end

section
/-! Slot policing: the events of payload and overhead slots, and the retirement of a grant at the fault limit (O15, O16;
R153 to R157). -/

namespace Sys2Proof.Machine

variable {s t u : State} {n i : Nat}

/-! ## Slot events in a known slot (R10) -/

theorem exec_slotEvent_in (h : s.ready) (hn : s.inSlot n) (act : BitVec 2) (w : Word) :
    exec (.slotEvent act w) s = .next ((s.closeSlot n (Sense.ofAct act) w).goTo (s.timer.code.placeAfter n)) := by
  rw [exec_slotEvent h]
  have hplace := Timer.place_running hn
  unfold State.slotEvent
  rw [reachSlot_of_slot hplace]
  dsimp only
  rw [hplace]
  rfl

/-- The move to what follows a slot leaves N as it was (R4). -/
theorem effectFor_goTo (h : u.timer.timing = .running (.slot n)) (c : LengthCode) (m : Nat) (ids : List Nat) :
    (u.goTo (c.placeAfter m)).effectFor ids = u.effectFor ids := by
  have hnext : (u.goTo (c.placeAfter m)).timer.nextFrame = u.timer.nextFrame := by
    have hold : u.timer.nextFrame = u.timer.fn + 1 := by
      unfold Timer.nextFrame
      rw [h]
    rw [hold]
    unfold LengthCode.placeAfter
    split
    · rfl
    · split <;> rfl
  unfold State.effectFor
  rw [hnext]
  rfl

theorem ofAct_zero : Sense.ofAct 0 = .silent := by decide

theorem ofAct_one : Sense.ofAct 1 = .one := by decide

theorem ofAct_many {act : BitVec 2} (h : act = 2 ∨ act = 3) : Sense.ofAct act = .many := by
  rcases h with rfl | rfl <;> decide

theorem ofAct_ne_silent {act : BitVec 2} (h : act ≠ 0) : Sense.ofAct act = .one ∨ Sense.ofAct act = .many := by
  revert act
  decide

theorem ofAct_ne_one {act : BitVec 2} (h : act ≠ 1) : Sense.ofAct act = .silent ∨ Sense.ofAct act = .many := by
  revert act
  decide

theorem closeSlot_payload (h : 64 ≤ n) (x : Sense) (w : Word) (s : State) : s.closeSlot n x w = s.payloadSlot n x := by
  unfold State.closeSlot
  rw [slotClass_payload h]

theorem closeSlot_overhead (h : n = 0 ∨ (48 ≤ n ∧ n ≤ 63)) (x : Sense) (w : Word) (s : State) :
    s.closeSlot n x w = s.overheadSlot x := by
  unfold State.closeSlot
  rcases h with rfl | ⟨hlow, hhigh⟩
  · rfl
  · rw [slotClass_downlink hlow hhigh]

/-! ## Payload and overhead slots (R153, R156, R157) -/

theorem payloadSlot_silent (n : Nat) (s : State) : s.payloadSlot n .silent = s := by
  unfold State.payloadSlot
  cases s.activeAt n <;> rfl

theorem payloadSlot_one (h : s.activeAt n = some i) : s.payloadSlot n .one = s.markUsed i := by
  unfold State.payloadSlot
  rw [h]

theorem payloadSlot_many (h : s.activeAt n = some i) : s.payloadSlot n .many = s.chargeFault i := by
  unfold State.payloadSlot
  rw [h]

theorem payloadSlot_intrusion {x : Sense} (h : s.activeAt n = none) (hx : x = .one ∨ x = .many) :
    s.payloadSlot n x = s.intrude n := by
  unfold State.payloadSlot
  rw [h]
  rcases hx with rfl | rfl <;> rfl

theorem overheadSlot_intrusion {x : Sense} (hx : x = .silent ∨ x = .many) : s.overheadSlot x = s.countIntrusion := by
  rcases hx with rfl | rfl <;> rfl

/-- The grant after a fault is charged (R154). -/
def State.charged (i : Nat) (s : State) : State := s.updGrant i (fun g => { g with faultCount := satInc g.faultCount })

theorem grant_charged (i : Nat) (s : State) (j : Nat) : (s.charged i).grant j =
    if j = i then { s.grant i with faultCount := satInc (s.grant i).faultCount } else s.grant j :=
  State.grant_updGrant s i j (fun g => { g with faultCount := satInc g.faultCount })

theorem counted_iff {x : GrantState} : x.counted = true ↔ x = .live ∨ x = .shifting := by
  cases x <;> simp [GrantState.counted]

theorem chargeFault_below (h : ((s.grant i).state ≠ .live ∧ (s.grant i).state ≠ .shifting)
    ∨ satInc (s.grant i).faultCount < s.cfg.faultLimit) : s.chargeFault i = s.charged i := by
  unfold State.chargeFault
  refine if_neg (fun k => ?_)
  have hgrant := grant_charged i s i
  rw [if_pos rfl] at hgrant
  unfold State.charged at hgrant
  rw [hgrant, counted_iff] at k
  rcases h with h | h
  · exact k.1.elim h.1 h.2
  · exact absurd h (BitVec.not_lt.2 k.2)

theorem chargeFault_reaches (hl : (s.grant i).state = .live ∨ (s.grant i).state = .shifting)
    (hf : s.cfg.faultLimit ≤ satInc (s.grant i).faultCount) : s.chargeFault i = (s.charged i).retireFaulted i := by
  unfold State.chargeFault
  have hgrant := grant_charged i s i
  rw [if_pos rfl] at hgrant
  unfold State.charged at hgrant
  refine if_pos ?_
  rw [hgrant]
  exact ⟨counted_iff.2 hl, hf⟩

/-! ## A retirement for FAULTED (R155) -/

theorem retireFaulted_eq {a : Nat} (ho : (s.grant i).owner = some a) : s.retireFaulted i =
    (if s.cfg.suspendOnFault then (((s.retire [i] (some .faulted)).1).raise .fault).setSuspended a true
      else ((s.retire [i] (some .faulted)).1).raise .fault) := by
  unfold State.retireFaulted State.reportFault
  dsimp only
  rw [ho]
  dsimp only
  rw [State.cfg_raise, (claimOnly_retire [i] (some .faulted) s).cfg]

/-- The suspension that a fault brings touches the owner's record only. -/
theorem retireFaulted_shape {a : Nat} (ho : (s.grant i).owner = some a) :
    s.retireFaulted i = { (s.retire [i] (some .faulted)).1 with
      ints := (s.retire [i] (some .faulted)).1.ints.raise .fault, stations := (s.retireFaulted i).stations }
      ∧ (s.retireFaulted i).station a = { (s.retire [i] (some .faulted)).1.station a with
          suspended := s.cfg.suspendOnFault || ((s.retire [i] (some .faulted)).1.station a).suspended } := by
  rw [retireFaulted_eq ho]
  generalize (s.retire [i] (some .faulted)).1 = v
  cases s.cfg.suspendOnFault with
  | true =>
    refine ⟨rfl, ?_⟩
    exact (State.station_updStation_same (v.raise .fault) a (fun r => { r with suspended := true })).trans rfl
  | false => exact ⟨rfl, rfl⟩

/-- What a MANY slot that brings a grant to the fault limit leaves (R154, R155). -/
theorem chargeFault_retires {a : Nat} (hl : (s.grant i).state = .live ∨ (s.grant i).state = .shifting)
    (hf : s.cfg.faultLimit ≤ satInc (s.grant i).faultCount) (hr : s.canRetire i) (ha : (s.grant i).activeCount ≠ 0)
    (ho : (s.grant i).owner = some a) (hs : (s.station a).state ≠ .leaving) :
    s.retiredTo i (s.chargeFault i)
      ∧ (s.chargeFault i).grant i = { s.grant i with
          faultCount := satInc (s.grant i).faultCount, state := .draining, planCount := 0 }
      ∧ ((s.chargeFault i).ints.isSet .fault = true ∧ (s.chargeFault i).ints.isFresh .fault = true)
      ∧ (s.chargeFault i).timer = s.timer
      ∧ ((s.chargeFault i).station a).suspended = (s.cfg.suspendOnFault || (s.station a).suspended)
      ∧ ((s.chargeFault i).station a).state = (s.station a).state
      ∧ s.queues a [.revoked (s.handle i) .faulted ((s.chargeFault i).effectFor [i]).frame] (s.chargeFault i) := by
  rw [chargeFault_reaches hl hf]
  have hgrant := grant_charged i s
  have hself := (hgrant i).trans (if_pos rfl)
  have hr' : (s.charged i).canRetire i := by
    unfold State.canRetire
    rw [hself]
    exact hr
  have ho' : ((s.charged i).grant i).owner = some a := by rw [hself]; exact ho
  have hhandle : (s.charged i).handle i = s.handle i := by unfold State.handle; rw [hself]
  have hto := retiredTo_retire hr' (some .faulted)
  have hdrain := grant_retire_active (List.mem_singleton_self i) hr' (by rw [hself]; exact ha) (some .faulted)
  have hqueues := queues_retire_one hr' .faulted ho'
  have hclaim := (claimedTo_retire [i] (some .faulted) (s.charged i) a).of_not_leaving hs
  have htimer := (claimOnly_retire [i] (some .faulted) (s.charged i)).timer
  obtain ⟨hshape, hstation⟩ := retireFaulted_shape ho'
  rw [hself] at hdrain
  rw [hhandle] at hqueues
  generalize (State.retire [i] (some .faulted) (s.charged i)).1 = v at hto hdrain hqueues hclaim htimer hshape hstation
  generalize (s.charged i).retireFaulted i = t at hshape hstation
  have hsame : SameRecords v t := by rw [hshape]; exact ⟨rfl, rfl, rfl, rfl, rfl⟩
  have hto' : s.retiredTo i v := by
    obtain ⟨hplan, hmaps, hrecord, hother, hcounter⟩ := hto
    refine ⟨hplan, hmaps, ?_, fun j hj => (hother j hj).trans ((hgrant j).trans (if_neg hj)), hcounter⟩
    rw [hself] at hrecord
    exact hrecord
  refine ⟨SameRecords.retiredTo ⟨rfl, rfl, rfl, rfl, rfl⟩ hsame hto', (hsame.grant i).trans hdrain, ?_, ?_, ?_, ?_, ?_⟩
  · rw [hshape]
    exact flag_raise .fault v
  · exact hsame.timer.trans htimer
  · rw [hstation, hclaim]
    rfl
  · rw [hstation, hclaim]
    rfl
  · rw [hsame.effectFor]
    intro hp hlen
    have hbox : t.mailbox a = v.mailbox a := State.mailbox_congr (by rw [hshape]) a
    rw [hbox]
    exact hqueues hp hlen

end Sys2Proof.Machine

namespace Sys2Proof.Proofs
open Sys2Proof.Machine

/-- Settles O15, by what ACTIVE says of the slot and by the sense. -/
theorem slotsArePoliced : Obligations.SlotsArePoliced := by
  unfold Obligations.SlotsArePoliced
  refine ⟨fun s n i w hready hn hpay hact => ⟨?_, ?_, fun hbelow act hm => ?_⟩,
    fun s n w hready hn => ⟨fun hpay hact => ⟨?_, fun act hd => ?_⟩, fun hover => ⟨?_, fun act hd => ?_⟩⟩⟩
  · rw [exec_slotEvent_in hready hn, closeSlot_payload hpay, ofAct_zero, payloadSlot_silent]
    rfl
  · rw [exec_slotEvent_in hready hn, closeSlot_payload hpay, ofAct_one, payloadSlot_one hact]
    rfl
  · rw [exec_slotEvent_in hready hn, closeSlot_payload hpay, ofAct_many hm, payloadSlot_many hact, chargeFault_below hbelow]
    rfl
  · rw [exec_slotEvent_in hready hn, closeSlot_payload hpay, ofAct_zero, payloadSlot_silent]
    rfl
  · rw [exec_slotEvent_in hready hn, closeSlot_payload hpay, payloadSlot_intrusion hact (ofAct_ne_silent hd), State.intrude]
    have hcfg : s.countIntrusion.cfg = s.cfg := rfl
    rw [hcfg]
    by_cases hz : s.cfg.taintFrames = 0
    · rw [if_pos hz, if_pos hz]
      rfl
    · rw [if_neg hz, if_neg hz]
      rfl
  · rw [exec_slotEvent_in hready hn, closeSlot_overhead hover, ofAct_one]
    rfl
  · rw [exec_slotEvent_in hready hn, closeSlot_overhead hover, overheadSlot_intrusion (ofAct_ne_one hd)]
    rfl

/-- Settles O16. -/
theorem faultedGrantsAreRetired : Obligations.FaultedGrantsAreRetired := by
  unfold Obligations.FaultedGrantsAreRetired
  intro s n i a w act hready hn hpay hact hm hl hf hr ha ho hstate
  have hs : (s.station a).state ≠ .leaving := by rcases hstate with h | h <;> rw [h] <;> nofun
  have hp : (s.station a).state.present = true := by rcases hstate with h | h <;> rw [h] <;> rfl
  obtain ⟨hto, hgrant, hflag, htimer, hsusp, hst, hq⟩ := chargeFault_retires hl hf hr ha ho hs
  have hexec := exec_slotEvent_in hready hn act w
  rw [closeSlot_payload hpay, ofAct_many hm, payloadSlot_many hact] at hexec
  generalize s.chargeFault i = u at hto hgrant hflag htimer hsusp hst hq hexec
  refine ⟨_, hexec, ?_, hto, ?_, ?_, hflag.1, hflag.2, hsusp, hst, fun hlen => ?_⟩
  · exact congrArg (fun t : Timer => { t with timing := .running (s.timer.code.placeAfter n) }) htimer
  · exact congrArg Grant.state hgrant
  · exact congrArg Grant.faultCount hgrant
  · rw [effectFor_goTo (n := n) (by rw [htimer]; exact hn)]
    exact hq hp hlen

end Sys2Proof.Proofs
end

section
/-! The uplink slots: presence, clashes, bad words, and the word received as the row of its kind (O17, O18, O20; R98 to R100,
R123, R189). -/

namespace Sys2Proof.Machine

variable {s t u : State} {a : Nat}

theorem closeSlot_uplink (h1 : 1 ≤ a) (h47 : a ≤ 47) (x : Sense) (w : Word) (s : State) :
    s.closeSlot a x w = s.uplinkSlot a x w := by
  unfold State.closeSlot
  rw [slotClass_uplink h1 h47]

theorem exec_uplinkSlot (h : s.ready) (hu : s.inUplinkSlot a) (act : BitVec 2) (w : Word) : exec (.slotEvent act w) s =
    .next ((s.uplinkSlot a (Sense.ofAct act) w).goTo (s.timer.code.placeAfter a)) := by
  obtain ⟨hn, h1, h47⟩ := hu
  rw [exec_slotEvent_in h hn, closeSlot_uplink h1 h47]

/-! ## Presence (R98, R99) -/

theorem markHeard_of_present (h : (s.station a).state.present = true) : s.markHeard a = s.heard a := by
  unfold State.markHeard
  exact if_pos h

theorem markHeard_of_not (h : (s.station a).state.present = false) : s.markHeard a = s := by
  unfold State.markHeard
  exact if_neg (Bool.eq_false_iff.1 h)

theorem station_heard (a : Nat) (s : State) (b : Nat) :
    (s.heard a).station b = if b = a then { s.station a with missed := 0 } else s.station b :=
  State.station_updStation s a b (fun r => { r with missed := 0 })

theorem station_markHeard (a : Nat) (s : State) (b : Nat) : (s.markHeard a).station b =
    if b = a then { s.station a with missed := if (s.station a).state.present then 0 else (s.station a).missed }
    else s.station b := by
  by_cases h : (s.station a).state.present = true
  · rw [markHeard_of_present h, station_heard, if_pos h]
  · rw [markHeard_of_not (Bool.not_eq_true _ ▸ h), if_neg h]
    split
    · rename_i hb
      rw [hb]
    · rfl

/-- `t` is `s` but for the stations. -/
def StationsOnly (s t : State) : Prop := t = { s with stations := t.stations }

theorem stationsOnly_updStation (a : Nat) (f : Station → Station) (s : State) : StationsOnly s (s.updStation a f) := rfl

theorem StationsOnly.trans (h : StationsOnly s t) (k : StationsOnly t u) : StationsOnly s u := by
  unfold StationsOnly at *
  rw [k, h]

theorem stationsOnly_markHeard (a : Nat) (s : State) : StationsOnly s (s.markHeard a) := by
  unfold State.markHeard
  split
  · exact stationsOnly_updStation a (fun r => { r with missed := 0 }) s
  · rfl

/-- One silent slot more (R98). -/
def State.missedOne (a : Nat) (s : State) : State := s.updStation a (fun r => { r with missed := satInc r.missed })

theorem station_missedOne (a : Nat) (s : State) (b : Nat) : (s.missedOne a).station b =
    if b = a then { s.station a with missed := satInc (s.station a).missed } else s.station b :=
  State.station_updStation s a b (fun r => { r with missed := satInc r.missed })

theorem silentUplink_of_gone (h : (s.station a).state = .absent ∨ (s.station a).state = .leaving) :
    s.silentUplink a = s := by
  unfold State.silentUplink
  exact if_neg (Bool.eq_false_iff.1 (not_present_iff.2 h))

theorem silentUplink_of_present (h : (s.station a).state.present = true) :
    s.silentUplink a = (s.missedOne a).testThresholds a := by
  unfold State.silentUplink
  exact if_pos h

/-- No threshold is reached (R99). -/
theorem testThresholds_below (hl : (s.station a).missed < s.cfg.lostAfter)
    (h : (s.station a).state = .joining ∨ (s.station a).state = .quiet
      ∨ ((s.station a).state = .member ∧ (s.station a).missed < s.cfg.quietAfter)) : s.testThresholds a = s := by
  have hnl : ¬ s.cfg.lostAfter ≤ (s.station a).missed := BitVec.not_le.2 hl
  unfold State.testThresholds
  dsimp only
  rcases h with h | h | ⟨h, hq⟩
  · rw [h]
    exact if_neg hnl
  · rw [h]
    exact if_neg hnl
  · rw [h]
    exact (if_neg hnl).trans (if_neg (BitVec.not_le.2 hq))

theorem testThresholds_quiet (hl : (s.station a).missed < s.cfg.lostAfter) (h : (s.station a).state = .member)
    (hq : s.cfg.quietAfter ≤ (s.station a).missed) : s.testThresholds a = s.moveStation a .quiet := by
  unfold State.testThresholds
  dsimp only
  rw [h]
  exact (if_neg (BitVec.not_le.2 hl)).trans (if_pos hq)

theorem testThresholds_lost_joining (hl : s.cfg.lostAfter ≤ (s.station a).missed) (h : (s.station a).state = .joining) :
    s.testThresholds a = s.failJoin a .lost := by
  unfold State.testThresholds
  dsimp only
  rw [h]
  exact if_pos hl

theorem testThresholds_lost_member (hl : s.cfg.lostAfter ≤ (s.station a).missed)
    (h : (s.station a).state = .member ∨ (s.station a).state = .quiet) :
    s.testThresholds a = s.enterLeaving a .lost := by
  unfold State.testThresholds
  dsimp only
  rcases h with h | h
  · rw [h]
    exact if_pos hl
  · rw [h]
    exact if_pos hl

/-! ## Clashes and bad words (R98) -/

theorem uplinkSlot_one (a : Nat) (w : Word) (s : State) : s.uplinkSlot a .one w = s.receiveWord a w := rfl

/-- A station record counted as heard, where presence is counted (R98). -/
def Station.heardIfPresent (r : Station) : Station := { r with missed := if r.state.present then 0 else r.missed }

/-- `t` is `s` but for the one station's record and these flags. -/
structure OneStation (a : Nat) (r : Station) (x : Interrupts) (s t : State) : Prop where
  self : t.station a = r
  other : ∀ b, b ≠ a → t.station b = s.station b
  shape : t = { s with stations := t.stations, ints := x }

theorem OneStation.goTo {r : Station} {x : Interrupts} (h : OneStation a r x s t) (p : FramePlace) :
    t.goTo p = { s with timer := (s.goTo p).timer, stations := (t.goTo p).stations, ints := x } := by
  have hstations : (t.goTo p).stations = t.stations := rfl
  rw [hstations]
  refine (congrArg (State.goTo p) h.shape).trans ?_
  rfl

theorem OneStation.updStation {r : Station} {x : Interrupts} (h : OneStation a r x s t) (f : Station → Station) :
    OneStation a (f r) x s (t.updStation a f) := by
  refine ⟨?_, fun b hb => ?_, ?_⟩
  · rw [State.station_updStation, if_pos rfl, h.self]
  · rw [State.station_updStation, if_neg hb, h.other b hb]
  · have hshape := h.shape
    unfold State.updStation
    generalize t.stations.put Station.fresh a (f (t.station a)) = l
    rw [hshape]

theorem OneStation.raise {r : Station} {x : Interrupts} (h : OneStation a r x s t) (f : Flag) :
    OneStation a r (x.raise f) s (t.raise f) := by
  refine ⟨h.self, h.other, ?_⟩
  have hints : t.ints = x := by rw [h.shape]
  have hshape := h.shape
  unfold State.raise
  rw [hints]
  rw [hshape]

theorem OneStation.refl (a : Nat) (s : State) : OneStation a (s.station a) s.ints s s := ⟨rfl, fun _ _ => rfl, rfl⟩

theorem oneStation_markHeard (a : Nat) (s : State) :
    OneStation a (s.station a).heardIfPresent s.ints s (s.markHeard a) := by
  refine ⟨(station_markHeard a s a).trans (if_pos rfl), fun b hb => (station_markHeard a s b).trans (if_neg hb), ?_⟩
  have h := stationsOnly_markHeard a s
  unfold StationsOnly at h
  exact h

theorem clashUplink_eq (a : Nat) (s : State) : s.clashUplink a =
    ((s.markHeard a).updStation a (fun r => { r with clashes := satInc r.clashes })).raise .clash := rfl

theorem receiveWord_even {w : Word} (h : oddOnes w = false) : s.receiveWord a w = (s.markHeard a).countBadWord a := by
  unfold State.receiveWord
  exact if_neg (Bool.eq_false_iff.1 h)

theorem receiveWord_unknown {w : Word} (h : oddOnes w = true) (hb : uplinkBody w = none) :
    s.receiveWord a w = ((s.markHeard a).returnFromQuiet a).countBadWord a := by
  unfold State.receiveWord
  dsimp only
  rw [if_pos h, hb]

theorem receiveWord_good {w : Word} {b : UplinkBody} (h : oddOnes w = true) (hb : uplinkBody w = some b) :
    s.receiveWord a w = ((s.markHeard a).returnFromQuiet a).decodeWord a (uplinkAck w) b := by
  unfold State.receiveWord
  dsimp only
  rw [if_pos h, hb]

theorem returnFromQuiet_of_not (h : (s.station a).state ≠ .quiet) : s.returnFromQuiet a = s := by
  unfold State.returnFromQuiet
  exact if_neg h

theorem returnFromQuiet_of_quiet (h : (s.station a).state = .quiet) : s.returnFromQuiet a = s.moveStation a .member := by
  unfold State.returnFromQuiet
  exact if_pos h

theorem state_markHeard (a : Nat) (s : State) (b : Nat) : ((s.markHeard a).station b).state = (s.station b).state := by
  rw [station_markHeard]
  split
  · rename_i hb
    rw [hb]
  · rfl

/-! ## The commands that stand for uplink words (R118) -/

theorem operationOf_command (ack : BitVec 4) (b : UplinkBody) :
    operationOf (b.command ack) = some (State.uplinkWordEvent (uplinkWord ack b)) := by
  cases b <;> rfl

theorem uplinkWordEvent_in (hu : s.inUplinkSlot a) (w : Word) :
    s.uplinkWordEvent w = (s.receiveWord a w).goTo (s.timer.code.placeAfter a) := by
  obtain ⟨hn, h1, h47⟩ := hu
  have hplace := Timer.place_running hn
  unfold State.uplinkWordEvent
  rw [hplace]
  dsimp only
  rw [if_pos (slotClass_uplink h1 h47), State.slotEventAt, closeSlot_uplink h1 h47]
  rfl

theorem uplinkWordEvent_of_not (h : ∀ a, ¬ s.inUplinkSlot a) (w : Word) : s.uplinkWordEvent w = s := by
  unfold State.uplinkWordEvent
  split
  · rename_i n hn
    have hn' : s.inSlot n := Timer.place_eq_some hn
    exact if_neg (fun hc => h n ⟨hn', slotClass_uplink_iff.1 hc⟩)
  all_goals rfl

/-- A good word's command in the station's slot: presence, the return from QUIET, then the row of its kind. -/
theorem exec_command (h : s.ready) (hu : s.inUplinkSlot a) (ack : BitVec 4) (b : UplinkBody) : exec (b.command ack) s =
    .next ((((s.markHeard a).returnFromQuiet a).decodeWord a ack b).goTo (s.timer.code.placeAfter a)) := by
  obtain ⟨hbody, hack, hodd⟩ := Proofs.uplinkWordsRoundTrip ack b
  rw [exec_of_ready (operationOf_command ack b) h, uplinkWordEvent_in hu, receiveWord_good hodd hbody, hack]

/-! ## A station lost (R99, R104, R107) -/

theorem uplinkSlot_silent (a : Nat) (w : Word) (s : State) : s.uplinkSlot a .silent w = s.silentUplink a := rfl

theorem State.Leaves.state {why : LeaveReason} (h : s.Leaves a why t) :
    ((t.station a).state = .leaving ∧ (t.station a).held ≠ 0)
      ∨ ((t.station a).state = .absent ∧ (t.station a).held = 0 ∧ (t.station a).missed = 0) := by
  rcases h.station with ⟨hz, hq⟩ | ⟨hz, hq⟩
  · exact .inl ⟨by rw [hq], hz⟩
  · exact .inr ⟨by rw [hq]; rfl, hz, by rw [hq]; rfl⟩

/-- What a station that reaches LOST_AFTER comes to (R99, R104, R107). -/
theorem testThresholds_lost (hl : s.cfg.lostAfter ≤ (s.station a).missed) (hp : (s.station a).state.present = true) :
    s.Ousts a .lost (s.testThresholds a)
      ∧ ((s.station a).state = .joining → ((s.testThresholds a).station a).state = .absent)
      ∧ ((s.station a).state = .member ∨ (s.station a).state = .quiet → s.Leaves a .lost (s.testThresholds a)) := by
  rcases present_cases hp with hj | hm
  · rw [testThresholds_lost_joining hl hj]
    refine ⟨ousts_failJoin a .lost s, fun _ => ?_, fun hm => ?_⟩
    · rw [station_failJoin, if_pos rfl]
      rfl
    · rw [hj] at hm
      exact absurd hm (by decide)
  · rw [testThresholds_lost_member hl hm]
    have hleaves := leaves_enterLeaving a .lost s
    refine ⟨hleaves.ousts, fun hj => ?_, fun _ => hleaves⟩
    rw [hj] at hm
    exact absurd hm (by decide)

end Sys2Proof.Machine

namespace Sys2Proof.Proofs
open Sys2Proof.Machine

/-- Settles O20. -/
theorem receivedWordsAreTheirRows : Obligations.ReceivedWordsAreTheirRows := by
  refine ⟨fun s a w b hready hu hodd hbody => ?_, fun s ack b hready hnot => ?_⟩
  · rw [exec_uplinkSlot hready hu, ofAct_one, exec_command hready hu, uplinkSlot_one, receiveWord_good hodd hbody]
  · rw [exec_of_ready (operationOf_command ack b) hready, uplinkWordEvent_of_not hnot]

/-- Settles O18. -/
theorem clashesAndBadWords : Obligations.ClashesAndBadWords := by
  refine fun s a w hready hu => ⟨fun act hm => ?_, fun hbad => ?_, fun hquiet hodd hbody => ?_⟩
  · have hone := ((oneStation_markHeard a s).updStation (fun r => { r with clashes := satInc r.clashes })).raise .clash
    rw [exec_uplinkSlot hready hu, ofAct_many hm]
    exact ⟨_, rfl, hone.self, hone.other, hone.goTo _⟩
  · have hone := (oneStation_markHeard a s).updStation (fun r => { r with badWords := satInc r.badWords })
    have hcount : s.receiveWord a w = (s.markHeard a).countBadWord a := by
      by_cases hodd : oddOnes w = false
      · exact receiveWord_even hodd
      · obtain ⟨hnq, hbody⟩ := hbad.resolve_left hodd
        rw [receiveWord_unknown (Bool.eq_true_of_not_eq_false hodd) hbody,
          returnFromQuiet_of_not (by rw [state_markHeard]; exact hnq)]
    rw [exec_uplinkSlot hready hu, ofAct_one]
    rw [uplinkSlot_one, hcount]
    exact ⟨_, rfl, hone.self, hone.other, hone.goTo _⟩
  · have hone := (((oneStation_markHeard a s).updStation (fun r => { r with state := .member })).raise .station).updStation
      (fun r => { r with badWords := satInc r.badWords })
    have hcount : s.receiveWord a w = ((s.markHeard a).moveStation a .member).countBadWord a := by
      rw [receiveWord_unknown hodd hbody, returnFromQuiet_of_quiet (by rw [state_markHeard]; exact hquiet)]
    rw [exec_uplinkSlot hready hu, ofAct_one]
    rw [uplinkSlot_one, hcount]
    refine ⟨_, rfl, hone.self.trans ?_, hone.other, hone.goTo _⟩
    unfold Station.heardIfPresent
    rw [hquiet]
    rfl

/-- Settles O17. -/
theorem silentUplinkSlots : Obligations.SilentUplinkSlots := by
  refine ⟨fun s a w hready hu => ⟨fun hgone => ?_, fun hl => ⟨fun hbelow => ?_, fun hmember hquiet => ?_⟩⟩,
    fun s a w hready hu hl habsent hleaving => ?_⟩
  · rw [exec_uplinkSlot hready hu, ofAct_zero, uplinkSlot_silent, silentUplink_of_gone hgone]
    rfl
  · have hself := (station_missedOne a s a).trans (if_pos rfl)
    have hp : (s.station a).state.present = true := by rcases hbelow with h | h | ⟨h, -⟩ <;> rw [h] <;> rfl
    rw [exec_uplinkSlot hready hu, ofAct_zero, uplinkSlot_silent, silentUplink_of_present hp,
      testThresholds_below (by rw [hself]; exact hl) (by rw [hself]; exact hbelow)]
    rfl
  · have hself := (station_missedOne a s a).trans (if_pos rfl)
    have hone := (((OneStation.refl a s).updStation (fun r => { r with missed := satInc r.missed })).updStation
      (fun r => { r with state := .quiet })).raise .station
    rw [exec_uplinkSlot hready hu, ofAct_zero, uplinkSlot_silent, silentUplink_of_present (by rw [hmember]; rfl),
      testThresholds_quiet (by rw [hself]; exact hl) (by rw [hself]; exact hmember) (by rw [hself]; exact hquiet)]
    exact ⟨_, rfl, rfl, hone.self, hone.other, hone.goTo _⟩
  · have hself := (station_missedOne a s a).trans (if_pos rfl)
    have hp : (s.station a).state.present = true := by
      rw [← Bool.not_eq_false, not_present_iff]
      exact fun k => k.elim habsent hleaving
    obtain ⟨hout, hjoin, hleaves⟩ := testThresholds_lost (s := s.missedOne a) (a := a) (by rw [hself]; exact hl)
      (by rw [hself]; exact hp)
    rw [exec_uplinkSlot hready hu, ofAct_zero, uplinkSlot_silent, silentUplink_of_present hp]
    obtain ⟨hquota, hclass, hbarred⟩ := hout.rights
    rw [hself] at hquota hclass hbarred hjoin hleaves
    have htimer : (s.missedOne a).timer = s.timer := State.timer_updStation _ _ _
    have hother : ∀ b, b ≠ a → (s.missedOne a).station b = s.station b ∧ (s.missedOne a).mailbox b = s.mailbox b :=
      fun b hb => ⟨(station_missedOne a s b).trans (if_neg hb), State.mailbox_congr (State.mailboxes_updStation _ _ _) b⟩
    generalize (s.missedOne a).testThresholds a = u at hout hjoin hleaves hquota hclass hbarred
    refine ⟨_, rfl, ?_, hjoin, fun hm => (hleaves hm).state, hout.reason, hout.mailbox, fun b hb => ?_, hout.flag.1,
      hout.flag.2, hquota, hclass, hbarred⟩
    · have ht := hout.timer.trans htimer
      exact congrArg (fun t : Timer => { t with timing := .running (s.timer.code.placeAfter a) }) ht
    · exact ⟨(hout.other b hb).1.trans (hother b hb).1, (hout.other b hb).2.trans (hother b hb).2⟩

end Sys2Proof.Proofs
end

section
/-! The words of MEMBER, JOINING, QUIET and LEAVING stations: acknowledgements, ASK, DROP and RENEW (O21 to O24; R100, R103,
R120 to R130, R141). -/

namespace Sys2Proof.Machine

variable {s t u : State} {a : Nat} {ack : BitVec 4}

/-! ## Two writes of one cell -/

theorem filter_insertCell {α : Type} (k : Nat) (v : α) (l : List (Nat × α)) :
    (insertCell k v l).filter (fun c => c.1 != k) = l.filter (fun c => c.1 != k) := by
  induction l with
  | nil => simp [insertCell]
  | cons c l ih =>
    unfold insertCell
    split
    · rw [List.filter_cons]
      simp
    · rw [List.filter_cons, ih, List.filter_cons]

theorem Table.put_put {α : Type} [DecidableEq α] (d : α) (l : Table α) (k : Nat) (v w : α) :
    (l.put d k v).put d k w = l.put d k w := by
  have hcells : (l.put d k v).cells.filter (fun c => c.1 != k) = l.cells.filter (fun c => c.1 != k) := by
    unfold Table.put
    split
    · simp
    · simp [filter_insertCell]
  unfold Table.put at hcells ⊢
  rw [hcells]

theorem updStation_updStation (a : Nat) (f g : Station → Station) (s : State) :
    (s.updStation a f).updStation a g = s.updStation a (fun r => g (f r)) := by
  have hself := State.station_updStation_same s a f
  unfold State.updStation at hself ⊢
  dsimp only at hself ⊢
  rw [hself, Table.put_put]

theorem updMailbox_congr {f g : Mailbox → Mailbox} (h : f (s.mailbox a) = g (s.mailbox a)) :
    s.updMailbox a f = s.updMailbox a g := by
  unfold State.updMailbox
  rw [h]

/-! ## The word of a station by its state (R123) -/

theorem exec_command_member (h : s.ready) (hu : s.inUplinkSlot a) (hm : (s.station a).state = .member) (b : UplinkBody) :
    exec (b.command ack) s =
      .next ((((s.heard a).takeAck a ack).memberWord a b).goTo (s.timer.code.placeAfter a)) := by
  have hstate : ((s.heard a).station a).state = .member := by
    rw [station_heard, if_pos rfl]
    exact hm
  have hdecode : (s.heard a).decodeWord a ack b = ((s.heard a).takeAck a ack).memberWord a b := by
    unfold State.decodeWord
    rw [hstate]
  rw [exec_command h hu, markHeard_of_present (by rw [hm]; rfl), returnFromQuiet_of_not (by rw [hstate]; nofun), hdecode]

theorem exec_command_joining (h : s.ready) (hu : s.inUplinkSlot a) (hj : (s.station a).state = .joining) (b : UplinkBody) :
    exec (b.command ack) s = .next (((s.heard a).takeAck a ack).goTo (s.timer.code.placeAfter a)) := by
  have hstate : ((s.heard a).station a).state = .joining := by
    rw [station_heard, if_pos rfl]
    exact hj
  have hdecode : (s.heard a).decodeWord a ack b = (s.heard a).takeAck a ack := by
    unfold State.decodeWord
    rw [hstate]
  rw [exec_command h hu, markHeard_of_present (by rw [hj]; rfl), returnFromQuiet_of_not (by rw [hstate]; nofun), hdecode]

theorem exec_command_gone (h : s.ready) (hu : s.inUplinkSlot a)
    (hg : (s.station a).state = .absent ∨ (s.station a).state = .leaving) (b : UplinkBody) :
    exec (b.command ack) s = .next ((s.decodeWord a ack b).goTo (s.timer.code.placeAfter a)) := by
  rw [exec_command h hu, markHeard_of_not (not_present_iff.2 hg),
    returnFromQuiet_of_not (by rcases hg with hg | hg <;> rw [hg] <;> nofun)]

/-! ## Acknowledgements (R103, R141) -/

theorem acknowledges_iff {m : Mailbox} : m.acknowledges ack = true ↔
    m.queue ≠ [] ∧ 1 ≤ m.head.sends ∧ m.head.sequence = some ack ∧ ack ≠ 0 := by
  simp [Mailbox.acknowledges, and_assoc]

theorem takeAck_of_not (h : (s.mailbox a).queue = [] ∨ (s.mailbox a).head.sends = 0
    ∨ (s.mailbox a).head.sequence ≠ some ack ∨ ack = 0) : s.takeAck a ack = s := by
  unfold State.takeAck
  refine if_neg (fun k => ?_)
  obtain ⟨hq, hs, hseq, hack⟩ := acknowledges_iff.1 k
  rcases h with h | h | h | h
  · exact hq h
  · omega
  · exact h hseq
  · exact hack h

theorem takeAck_removes (h : (s.mailbox a).acknowledges ack = true) (hm : (s.station a).state ≠ .joining) :
    s.takeAck a ack = s.updMailbox a Mailbox.removeHead := by
  unfold State.takeAck
  rw [if_pos h]
  exact if_neg (fun k => hm k.2)

theorem takeAck_joins {q : List Notice} (h : (s.mailbox a).acknowledges ack = true)
    (hq : (s.mailbox a).queue = .joined :: q) (hj : (s.station a).state = .joining) :
    s.takeAck a ack = (s.updMailbox a Mailbox.removeHead).moveStation a .member := by
  unfold State.takeAck
  rw [if_pos h]
  exact if_pos ⟨by rw [hq]; rfl, hj⟩

theorem mailbox_heard (a : Nat) (s : State) (b : Nat) : (s.heard a).mailbox b = s.mailbox b :=
  State.mailbox_congr (State.mailboxes_updStation _ _ _) b

/-! ## The return from QUIET (R100) -/

theorem ready_congr (hr : t.inReset = s.inReset) (he : t.engine = s.engine) (hp : t.port = s.port)
    (hq : t.askQueue = s.askQueue) (h : s.ready) : t.ready := by
  refine ⟨hr.trans h.1, ?_⟩
  have hd := h.2
  rw [takeDue_eq_false_iff] at hd ⊢
  rw [he, hp, hq]
  exact hd

theorem heard_moveStation (a : Nat) (s : State) : (s.heard a).moveStation a .member = (s.moveStation a .member).heard a := by
  have hleft : (s.heard a).updStation a (fun r => { r with state := .member })
      = (s.updStation a (fun r => { r with state := .member })).updStation a (fun r => { r with missed := 0 }) := by
    unfold State.heard
    rw [updStation_updStation, updStation_updStation]
  unfold State.moveStation
  rw [hleft]
  rfl

/-- A QUIET station's word acts as a MEMBER's, once the station has returned. -/
theorem exec_command_quiet (h : s.ready) (hu : s.inUplinkSlot a) (hq : (s.station a).state = .quiet) (b : UplinkBody) :
    exec (b.command ack) s = exec (b.command ack) (s.moveStation a .member) := by
  have hmember : ((s.moveStation a .member).station a).state = .member := by rw [station_moveStation, if_pos rfl]
  have hheard : ((s.heard a).station a).state = .quiet := by
    rw [station_heard, if_pos rfl]
    exact hq
  have hdecode : ((s.moveStation a .member).heard a).decodeWord a ack b
      = (((s.moveStation a .member).heard a).takeAck a ack).memberWord a b := by
    unfold State.decodeWord
    rw [station_heard, if_pos rfl]
    dsimp only
    rw [hmember]
  have hready : (s.moveStation a .member).ready := by
    refine ready_congr ?_ ?_ ?_ ?_ h <;> simp [State.moveStation]
  have hslot : (s.moveStation a .member).inUplinkSlot a := hu
  rw [exec_command_member hready hslot hmember, exec_command h hu, markHeard_of_present (by rw [hq]; rfl),
    returnFromQuiet_of_quiet hheard, heard_moveStation, hdecode]
  rfl

end Sys2Proof.Machine

namespace Sys2Proof.Proofs
open Sys2Proof.Machine

/-- Settles O21. -/
theorem acksRemoveTheHead : Obligations.AcksRemoveTheHead := by
  refine ⟨fun s a ack hready hu hm => ⟨fun n q hq hsends hseq hack => ?_, fun hnot => ?_⟩,
    fun s a ack b hready hu hj => ⟨fun q hq hsends hseq hack => ?_, fun hnot => ?_⟩⟩
  · have hacks : ((s.heard a).mailbox a).acknowledges ack = true := by
      rw [mailbox_heard, acknowledges_iff, hq]
      exact ⟨nofun, hsends, hseq, hack⟩
    refine (exec_command_member hready hu hm .keep).trans ?_
    rw [takeAck_removes hacks (by rw [station_heard, if_pos rfl]; rw [hm]; nofun)]
    rw [updMailbox_congr (g := fun m => { m with queue := q, head := .unsent }) (by
      rw [mailbox_heard, Mailbox.removeHead, hq]
      rfl)]
    rfl
  · refine (exec_command_member hready hu hm .keep).trans ?_
    rw [takeAck_of_not (by rw [mailbox_heard]; exact hnot)]
    rfl
  · have hacks : ((s.heard a).mailbox a).acknowledges ack = true := by
      rw [mailbox_heard, acknowledges_iff, hq]
      exact ⟨nofun, hsends, hseq, hack⟩
    have hstate : ((s.heard a).station a).state = .joining := by rw [station_heard, if_pos rfl]; exact hj
    have hremove : (s.heard a).updMailbox a Mailbox.removeHead
        = (s.updMailbox a (fun m => { m with queue := q, head := .unsent })).heard a := by
      rw [updMailbox_congr (g := fun m => { m with queue := q, head := .unsent }) (by
        rw [mailbox_heard, Mailbox.removeHead, hq]
        rfl)]
      rfl
    rw [exec_command_joining hready hu hj, takeAck_joins hacks (by rw [mailbox_heard]; exact hq) hstate, hremove]
    have hold : ∀ b, (s.updMailbox a (fun m => { m with queue := q, head := .unsent })).station b = s.station b :=
      fun b => State.station_congr (State.stations_updMailbox _ _ _) b
    generalize hv : s.updMailbox a (fun m => { m with queue := q, head := .unsent }) = v at hold
    have hone := (((OneStation.refl a v).updStation (fun r => { r with missed := 0 })).updStation
      (fun r => { r with state := .member })).raise .station
    refine ⟨_, rfl, hone.self.trans (by rw [hold]), fun c hc => (hone.other c hc).trans (hold c), ?_⟩
    have hints : v.ints = s.ints := by rw [← hv]; exact State.ints_updMailbox _ _ _
    have hcode : v.timer = s.timer := by rw [← hv]; exact State.timer_updMailbox _ _ _
    refine (hone.goTo _).trans ?_
    rw [hints, ← hcode]
    rfl
  · rw [exec_command_joining hready hu hj, takeAck_of_not (by rw [mailbox_heard]; exact hnot)]
    rfl

/-- Settles O22. -/
theorem quietReturnsAndLeavingIsIgnored : Obligations.QuietReturnsAndLeavingIsIgnored := by
  refine fun s a ack b hready hu => ⟨fun hq => ?_, fun hl => ?_⟩
  · exact exec_command_quiet hready hu hq b
  · rw [exec_command_gone hready hu (.inr hl)]
    have hdecode : s.decodeWord a ack b = s := by
      unfold State.decodeWord
      rw [hl]
    rw [hdecode]
    rfl

end Sys2Proof.Proofs
end

section
/-! A MEMBER station's ASK, DROP and RENEW (O23, O24; R93, R94, R120, R122, R126 to R129). -/

namespace Sys2Proof.Machine

variable {s t u : State} {a : Nat} {ack : BitVec 4}

/-! ## After the ack (R141) -/

/-- `t` is `s` but for the stations and the mailboxes. -/
def RosterOnly (s t : State) : Prop := t = { s with stations := t.stations, mailboxes := t.mailboxes }

/-- A MEMBER station's word before the row of its kind: presence and the ack. -/
def State.acked (a : Nat) (ack : BitVec 4) (s : State) : State := (s.heard a).takeAck a ack

theorem rosterOnly_acked (hm : (s.station a).state = .member) : RosterOnly s (s.acked a ack) := by
  unfold State.acked
  by_cases h : ((s.heard a).mailbox a).acknowledges ack = true
  · rw [takeAck_removes h (by rw [station_heard, if_pos rfl]; rw [hm]; nofun)]
    rfl
  · have hsame : (s.heard a).takeAck a ack = s.heard a := by
      unfold State.takeAck
      exact if_neg h
    rw [hsame]
    rfl

theorem station_acked (hm : (s.station a).state = .member) (b : Nat) :
    (s.acked a ack).station b = (s.heard a).station b :=
  station_takeAck_of_member (by rw [station_heard, if_pos rfl]; exact hm) ack b

theorem state_acked (hm : (s.station a).state = .member) (b : Nat) :
    ((s.acked a ack).station b).state = (s.station b).state := by
  rw [station_acked hm, station_heard]
  split
  · rename_i hb
    rw [hb]
  · rfl

section
variable (h : RosterOnly s t)
include h
theorem RosterOnly.sameRecords : SameRecords s t := by rw [h]; exact ⟨rfl, rfl, rfl, rfl, rfl⟩
theorem RosterOnly.cfg : t.cfg = s.cfg := by rw [h]
theorem RosterOnly.engine : t.engine = s.engine := by rw [h]
theorem RosterOnly.port : t.port = s.port := by rw [h]
theorem RosterOnly.asks : t.asks = s.asks := by rw [h]
theorem RosterOnly.askQueue : t.askQueue = s.askQueue := by rw [h]
theorem RosterOnly.ask (b : Nat) : t.ask b = s.ask b := State.ask_congr h.asks b
end

/-! ## ASK (R122, R126, R127) -/

theorem askFor_answered {f : AskFields} (h : (s.ask a).lastAnswered = some f.seq) : s.askFor a f = s := by
  unfold State.askFor
  exact if_pos h

theorem askFor_held {f : AskFields} (h : (s.ask a).lastAnswered ≠ some f.seq) {q : BitVec 4}
    (hq : (s.ask a).status = .waiting q ∨ (s.ask a).status = .inFlight q) :
    s.askFor a f = if q = f.seq then s else s.refuseBusy a f.seq := by
  unfold State.askFor
  rw [if_neg h]
  rcases hq with hq | hq <;> rw [hq] <;> rfl

theorem askFor_free {f : AskFields} (h : (s.ask a).lastAnswered ≠ some f.seq) (hn : (s.ask a).status = .none) :
    s.askFor a f = s.arriveAsk a f := by
  unfold State.askFor
  rw [if_neg h, hn]
  rfl

/-! ## The take of an ask does not see the place in the frame -/

theorem placeNew_goTo (k : Nat → PlacementKind) (g : Grant) (i : Nat) (p : FramePlace) (s : State) :
    (s.goTo p).placeNew k g i = (s.placeNew k g i).goTo p := by
  have hcontext : (s.goTo p).newContext k g i = s.newContext k g i := by
    have hlike : SearchesAlike (s.freeQueue.headD 0) s (s.goTo p) := ⟨rfl, rfl, fun _ _ => rfl⟩
    unfold State.newContext
    have hqueue : (s.goTo p).freeQueue = s.freeQueue := rfl
    rw [hqueue, hlike.search]
    rfl
  have hleft := engine_placeNew_search k g i (s.goTo p)
  have hright := engine_placeNew_search k g i s
  rw [hcontext] at hleft
  have hrest : (s.goTo p).placeNew k g i =
      { (s.placeNew k g i).goTo p with engine := ((s.goTo p).placeNew k g i).engine } := rfl
  have hengine : ((s.goTo p).placeNew k g i).engine = (s.placeNew k g i).engine := hleft.trans hright.symm
  rw [hrest, hengine]
  rfl

theorem handNotice_goTo (b : Nat) (n : Notice) (p : FramePlace) (s : State) :
    (s.goTo p).handNotice b n = (s.handNotice b n).goTo p := by
  have hst : (s.goTo p).station b = s.station b := rfl
  have hmb : (s.goTo p).mailbox b = s.mailbox b := rfl
  unfold State.handNotice
  rw [hst, hmb]
  split
  · split <;> rfl
  · rfl

theorem takeAsk_goTo (q : Ask) (p : FramePlace) (s : State) : (s.goTo p).takeAsk q = (s.takeAsk q).goTo p := by
  have hchecks : (s.goTo p).askChecks q.station (askCount q.fields) (Pattern.ofBits q.fields.pattern) q.fields.cls
      = s.askChecks q.station (askCount q.fields) (Pattern.ofBits q.fields.pattern) q.fields.cls := rfl
  have hset : ∀ x, (s.goTo p).setAsk q.station x = (s.setAsk q.station x).goTo p := fun _ => rfl
  unfold State.takeAsk
  dsimp only
  rw [hchecks]
  split
  · rw [hset, State.answerAsk, handNotice_goTo]
    rfl
  · rw [hset, placeNew_goTo]

theorem ask_setAsk (b : Nat) (x : AskStatus) (s : State) (c : Nat) :
    (s.setAsk b x).ask c = if c = b then { s.ask b with status := x } else s.ask c :=
  State.ask_updAsk s b c (fun k => { k with status := x })

theorem ask_answerAsk (b : Nat) (q : BitVec 4) (n : Notice) (s : State) (c : Nat) :
    (s.answerAsk b q n).ask c = if c = b then { s.ask b with lastAnswered := some q } else s.ask c := by
  unfold State.answerAsk
  have hask : ∀ d, (s.handNotice b n).ask d = s.ask d := fun d => (claimOnly_handNotice b n).ask d
  rw [State.ask_updAsk, hask, hask]

theorem asks_placeNew (k : Nat → PlacementKind) (g : Grant) (i : Nat) (s : State) : (s.placeNew k g i).asks = s.asks := by
  unfold State.placeNew State.begin State.reserve State.holdOneMore
  simp

/-- Taken, an ask is not WAITING any more. -/
theorem status_takeAsk (q : Ask) (s : State) (x : BitVec 4) : ((s.takeAsk q).ask q.station).status ≠ .waiting x := by
  unfold State.takeAsk
  dsimp only
  split
  · rw [ask_answerAsk, if_pos rfl, ask_setAsk, if_pos rfl]
    nofun
  · rw [State.ask_congr (asks_placeNew _ _ _ _), ask_setAsk, if_pos rfl]
    nofun

/-- The ask accepted joins the tail of the queue, WAITING (R126). -/
theorem acceptAsk_eq (b : Nat) (f : AskFields) (s : State) : s.acceptAsk b f =
    { s with asks := (s.acceptAsk b f).asks, askQueue := s.askQueue ++ [{ station := b, fields := f }] } := rfl

theorem ask_acceptAsk (b : Nat) (f : AskFields) (s : State) (c : Nat) :
    (s.acceptAsk b f).ask c = if c = b then { s.ask b with status := .waiting f.seq } else s.ask c :=
  State.ask_updAsk s b c (fun k => { k with status := .waiting f.seq })

/-- An idle engine with nothing to do takes the one ask that comes (R122). -/
theorem takeOnce_acceptAsk {f : AskFields} (hidle : s.engine.context = none) (hq : s.askQueue = [])
    (hi : s.port.inProgress = none) (p : FramePlace) :
    ((s.acceptAsk a f).goTo p).takeOnce = (s.acceptAsk a f).takeOnce.goTo p
      ∧ (s.acceptAsk a f).takeOnce.askQueue = [] ∧ ∀ x, ((s.acceptAsk a f).takeOnce.ask a).status ≠ .waiting x := by
  have hqueue : (s.acceptAsk a f).askQueue = [{ station := a, fields := f }] := by
    rw [acceptAsk_eq, hq]
    rfl
  have htake := takeOnce_uplink (s := s.acceptAsk a f) hidle hqueue (.inl hi)
  have htake' := takeOnce_uplink (s := (s.acceptAsk a f).goTo p) hidle hqueue (.inl hi)
  rw [htake, htake']
  generalize s.acceptAsk a f = v
  exact ⟨takeAsk_goTo _ p { v.noteKind .uplink with askQueue := [] }, (takeAsk_leaves _ _).2.1, status_takeAsk _ _⟩

/-! ## DROP and RENEW (R93, R94, R128, R129) -/

theorem owns_iff {h : Handle} :
    s.owns a h = true ↔ s.handlePasses h = true ∧ (s.grant h.index.toNat).owner = some a := by
  simp [State.owns]

theorem stale_owns {h : Handle} (hn : s.handlePasses h = false ∨ (s.grant h.index.toNat).owner ≠ some a) :
    ¬ s.owns a h = true := by
  rw [owns_iff]
  rintro ⟨hp, ho⟩
  rcases hn with hn | hn
  · exact Bool.false_ne_true (hn.symm.trans hp)
  · exact hn ho

/-- The reload of a nonzero lease code is what its LEASE_CODE register holds (R84, R92). -/
theorem leaseFor_of_ne_zero {code : BitVec 4} {r : BitVec 16} (h0 : code ≠ 0)
    (hk : ∀ k : Nat, 1 ≤ k → k ≤ 15 → code = BitVec.ofNat 4 k →
      r.setWidth 32 = s.registerRead (BitVec.ofNat 6 (0x10 + k))) : s.cfg.leaseFor code = r := by
  have hlt : code.toNat < 16 := code.isLt
  have hpos : 1 ≤ code.toNat := Nat.one_le_iff_ne_zero.2 (fun h => h0 (BitVec.eq_of_toNat_eq h))
  have hread := hk code.toNat hpos (by omega) (by simp)
  rw [registerRead_leaseCode hpos (by omega)] at hread
  obtain ⟨m, hm⟩ : ∃ m, code.toNat = m + 1 := ⟨code.toNat - 1, by omega⟩
  unfold Registers.leaseFor
  rw [setWidth_frame_inj hread, hm]
  rfl

theorem dropFor_stale {h : Handle} (hn : s.handlePasses h = false ∨ (s.grant h.index.toNat).owner ≠ some a) :
    s.dropFor a h = s.handNotice a (.refusedHandle .staleHandle h) := by
  unfold State.dropFor
  exact if_neg (stale_owns hn)

theorem dropFor_owned {h : Handle} (hp : s.handlePasses h = true) (ho : (s.grant h.index.toNat).owner = some a) :
    s.dropFor a h = (s.retire [h.index.toNat] (some .dropped)).1 := by
  unfold State.dropFor
  exact if_pos (owns_iff.2 ⟨hp, ho⟩)

/-- A retire claim leaves a grant alone that is not PENDING, LIVE or SHIFTING (R45). -/
theorem retire_of_not_retirable {i : Nat} (h : (s.grant i).state.retirable = false) (why : Option RevokeReason) :
    (s.retire [i] why).1 = s := by
  have hids : s.retiredIds [i] = [] := by
    unfold State.retiredIds
    rw [List.filter_eq_nil_iff]
    intro j _ hj
    rw [Bool.and_eq_true, List.contains_iff_mem, List.mem_singleton] at hj
    obtain ⟨rfl, hr⟩ := hj
    exact Bool.false_ne_true (h.symm.trans hr)
  rw [retire_eq, State.retiring, hids]
  exact complete_nil s

theorem renewFor_stale {h : Handle} {code : BitVec 4}
    (hn : s.handlePasses h = false ∨ (s.grant h.index.toNat).owner ≠ some a) :
    s.renewFor a h code = s.handNotice a (.refusedHandle .staleHandle h) := by
  unfold State.renewFor
  exact if_neg (stale_owns hn)

theorem renewFor_owned {h : Handle} {code : BitVec 4} (hp : s.handlePasses h = true)
    (ho : (s.grant h.index.toNat).owner = some a) : s.renewFor a h code =
      if (s.grant h.index.toNat).state = .draining then s.handNotice a (.refusedHandle .retiring h)
      else s.renewGrant h.index.toNat (if code = 0 then none else some (s.cfg.leaseFor code)) := by
  unfold State.renewFor
  exact if_pos (owns_iff.2 ⟨hp, ho⟩)

theorem pastSlot_congr {v : State} (h : v.timer = s.timer) (a : Nat) :
    v.goTo (s.timer.code.placeAfter a) = v.pastSlot a := by
  unfold State.pastSlot
  rw [h]

end Sys2Proof.Machine

namespace Sys2Proof.Proofs
open Sys2Proof.Machine

/-- Settles O23. -/
theorem asksAreTakenByTheirRow : Obligations.AsksAreTakenByTheirRow := by
  intro s a ack f hready hu hm
  have honly := rosterOnly_acked (ack := ack) hm
  have hask := honly.ask
  have hexec : exec (.ask ack f) s = .next (((s.acked a ack).askFor a f).goTo (s.timer.code.placeAfter a)) :=
    exec_command_member hready hu hm (.ask f)
  have htimer : (s.acked a ack).timer = s.timer := honly.sameRecords.timer
  rw [hexec]
  refine ⟨fun hlast => ?_, fun hlast => ⟨fun hheld => ?_, fun q hq hheld => ?_, fun hfree => ?_⟩⟩
  · rw [askFor_answered (by rw [hask]; exact hlast), ← htimer]
    rfl
  · rw [askFor_held (by rw [hask]; exact hlast) (by rw [hask]; exact hheld), if_pos rfl, ← htimer]
    rfl
  · rw [askFor_held (by rw [hask]; exact hlast) (by rw [hask]; exact hheld), if_neg hq, ← htimer]
    have hrefused : ((s.acked a ack).refuseBusy a f.seq).timer = (s.acked a ack).timer :=
      (kept_timer _).ask a (fun k => { k with lastAnswered := some f.seq }) _ ((claimOnly_handNotice _ _).timer)
    rw [pastSlot_congr hrefused]
    rfl
  · rw [askFor_free (by rw [hask]; exact hlast) (by rw [hask]; exact hfree)]
    have haccept := ask_acceptAsk a f (s.acked a ack)
    refine ⟨((s.acked a ack).acceptAsk a f).goTo (s.timer.code.placeAfter a), ?_, ?_, fun b hb => ?_, ?_, fun hbusy => ?_,
      fun hidle => ?_⟩
    · exact congrArg (· ++ [({ station := a, fields := f } : Ask)]) honly.askQueue
    · exact (haccept a).trans ((if_pos rfl).trans (by rw [hask]))
    · exact (haccept b).trans ((if_neg hb).trans (hask b))
    · rw [← htimer]
      rfl
    · rw [arriveAsk_of_busy a f (by rw [honly.engine]; exact hbusy)]
    · have hnone := (takeDue_eq_false_iff.1 hready.2).resolve_left (by rw [hidle]; exact Bool.false_ne_true)
      have hdue : (s.acked a ack).takeDue = false := by
        rw [takeDue_eq_false_iff, honly.engine, honly.port, honly.askQueue]
        exact .inr hnone
      rw [arriveAsk_of_idle a f (by rw [honly.engine]; exact hidle) hdue]
      obtain ⟨hgo, hqueue, hstatus⟩ := takeOnce_acceptAsk (s := s.acked a ack) (a := a) (f := f)
        (by rw [honly.engine]; exact hidle) (by rw [honly.askQueue]; exact hnone.2) (by rw [honly.port]; exact hnone.1)
        (s.timer.code.placeAfter a)
      have hreset : (((s.acked a ack).acceptAsk a f).goTo (s.timer.code.placeAfter a)).inReset = false := by
        have hsame : (s.acked a ack).inReset = s.inReset := by rw [honly]
        exact hsame.trans hready.1
      refine ⟨_, rfl, ?_, hqueue, hstatus⟩
      rw [exec_placementTake hreset, hgo]

/-- Settles O24. -/
theorem dropAndRenewWords : Obligations.DropAndRenewWords := by
  have hdrop : ∀ {s : State} {a : Nat} {ack : BitVec 4}, s.ready → s.inUplinkSlot a → (s.station a).state = .member →
      ∀ h, exec (.drop ack h) s = .next (((s.acked a ack).dropFor a h).goTo (s.timer.code.placeAfter a)) :=
    fun hready hu hm h => exec_command_member hready hu hm (.drop h)
  have hrenew : ∀ {s : State} {a : Nat} {ack : BitVec 4}, s.ready → s.inUplinkSlot a → (s.station a).state = .member →
      ∀ h code, exec (.renewWord ack h code) s = .next (((s.acked a ack).renewFor a h code).goTo (s.timer.code.placeAfter a)) :=
    fun hready hu hm h code => exec_command_member hready hu hm (.renew h code)
  refine ⟨fun s a ack code h hready hu hm => ⟨fun hstale => ?_, fun hpass hown hdrain => ?_⟩,
    fun s a ack code h r hready hu hm hpass hown hdrain hzero hcode => ?_,
    fun s a ack h hready hu hm hpass hown hr => ?_⟩
  · have hsame := (rosterOnly_acked (ack := ack) hm).sameRecords
    have hstale' : (s.acked a ack).handlePasses h = false ∨ ((s.acked a ack).grant h.index.toNat).owner ≠ some a := by
      rw [hsame.handlePasses, hsame.grant]
      exact hstale
    rw [hdrop hready hu hm, hrenew hready hu hm, dropFor_stale hstale', renewFor_stale hstale',
      pastSlot_congr ((claimOnly_handNotice _ _).timer.trans hsame.timer)]
    exact ⟨rfl, rfl⟩
  · have hsame := (rosterOnly_acked (ack := ack) hm).sameRecords
    have hpass' : (s.acked a ack).handlePasses h = true := by rw [hsame.handlePasses]; exact hpass
    have hown' : ((s.acked a ack).grant h.index.toNat).owner = some a := by rw [hsame.grant]; exact hown
    have hdrain' : ((s.acked a ack).grant h.index.toNat).state = .draining := by rw [hsame.grant]; exact hdrain
    rw [hdrop hready hu hm, hrenew hready hu hm, dropFor_owned hpass' hown', renewFor_owned hpass' hown', if_pos hdrain',
      retire_of_not_retirable (by rw [hdrain']; rfl), pastSlot_congr hsame.timer,
      pastSlot_congr ((claimOnly_handNotice _ _).timer.trans hsame.timer)]
    exact ⟨rfl, rfl⟩
  · have honly := rosterOnly_acked (ack := ack) hm
    have hsame := honly.sameRecords
    have hpass' : (s.acked a ack).handlePasses h = true := by rw [hsame.handlePasses]; exact hpass
    have hown' : ((s.acked a ack).grant h.index.toNat).owner = some a := by rw [hsame.grant]; exact hown
    have hload : (if code = 0 then none else some ((s.acked a ack).cfg.leaseFor code)).getD
        ((s.acked a ack).grant h.index.toNat).leaseReload = r := by
      by_cases h0 : code = 0
      · rw [if_pos h0, hsame.grant]
        exact (hzero h0).symm
      · rw [if_neg h0, honly.cfg]
        exact leaseFor_of_ne_zero h0 hcode
    rw [hrenew hready hu hm, renewFor_owned hpass' hown', if_neg (by rw [hsame.grant]; exact hdrain),
      renewGrant_tells hown', handle_of_passes hpass', hload]
    have hgrants : (s.acked a ack).updGrant h.index.toNat
          (Grant.renewed (if code = 0 then none else some ((s.acked a ack).cfg.leaseFor code)))
        = (s.acked a ack).updGrant h.index.toNat
          (fun g => { g with leaseReload := r, leaseRemaining := r, leaseWarned := false }) := by
      unfold State.updGrant Grant.renewed
      rw [hload]
    rw [hgrants, pastSlot_congr ((claimOnly_handNotice _ _).timer.trans
      ((claimOnly_updGrant _ _).timer.trans hsame.timer))]
    rfl
  · have honly := rosterOnly_acked (ack := ack) hm
    have hsame := honly.sameRecords
    have hpass' : (s.acked a ack).handlePasses h = true := by rw [hsame.handlePasses]; exact hpass
    have hown' : ((s.acked a ack).grant h.index.toNat).owner = some a := by rw [hsame.grant]; exact hown
    have hr' := hsame.canRetire.2 hr
    have hto := retiredTo_retire hr' (some .dropped)
    have hclaim := claimOnly_retire [h.index.toNat] (some .dropped) (s.acked a ack)
    have hst := (claimedTo_retire [h.index.toNat] (some .dropped) (s.acked a ack) a).of_not_leaving
      (by rw [state_acked hm, hm]; nofun)
    have hq := queues_retire_one hr' .dropped hown'
    rw [handle_of_passes hpass'] at hq
    rw [hdrop hready hu hm, dropFor_owned hpass' hown']
    have hstate := state_acked (ack := ack) hm a
    generalize (State.retire [h.index.toNat] (some .dropped) (s.acked a ack)).1 = u at hto hclaim hst hq
    have htimer : u.timer = s.timer := hclaim.timer.trans hsame.timer
    have hto' : s.retiredTo h.index.toNat u := SameRecords.retiredTo hsame.symm ⟨rfl, rfl, rfl, rfl, rfl⟩ hto
    refine ⟨_, rfl, ?_, hto', ?_, ?_, ?_, fun hroom => ?_⟩
    · exact congrArg (fun t : Timer => { t with timing := .running (s.timer.code.placeAfter a) }) htimer
    · have hu' : (u.station a).state = .member := by
        rw [hst]
        exact hstate.trans hm
      exact hu'
    · exact hclaim.asks.trans honly.asks
    · exact hclaim.askQueue.trans honly.askQueue
    · rw [effectFor_goTo (n := a) (by rw [htimer]; exact hu.1)]
      exact hq (by rw [hstate, hm]; rfl) hroom

end Sys2Proof.Proofs
end

section
/-! LEAVE and JOIN of a MEMBER station, the words of an ABSENT station, and the completion of a departure (O25 to O27; R102,
R105, R107 to R109, R125, R138, R139). -/

namespace Sys2Proof.Machine

variable {s t u : State} {a : Nat} {ack : BitVec 4}

theorem mailbox_acked_other {b : Nat} (hb : b ≠ a) (hm : (s.station a).state = .member) :
    (s.acked a ack).mailbox b = s.mailbox b := by
  unfold State.acked
  by_cases h : ((s.heard a).mailbox a).acknowledges ack = true
  · rw [takeAck_removes h (by rw [station_heard, if_pos rfl]; rw [hm]; nofun), State.mailbox_updMailbox, if_neg hb,
      mailbox_heard]
  · have hsame : (s.heard a).takeAck a ack = s.heard a := by
      unfold State.takeAck
      exact if_neg h
    rw [hsame, mailbox_heard]

/-! ## The asks of a station that leaves (R107 step 3) -/

section asks
variable (why : LeaveReason)

theorem ask_leaving (b : Nat) (s : State) : (s.leaving a why).ask b = s.ask b :=
  State.ask_congr (by simp [State.leaving, State.emptyQueue, State.moveStation]) b

theorem askQueue_leaving (s : State) : (s.leaving a why).askQueue = s.askQueue := by
  simp [State.leaving, State.emptyQueue, State.moveStation]

theorem ask_toLeaving_other {b : Nat} (hb : b ≠ a) (s : State) : (s.toLeaving a why).ask b = s.ask b := by
  unfold State.toLeaving
  rw [ask_dropWaitingAsk_other hb, ask_leaving]

theorem toLeaving_waiting {q : BitVec 4} (h : (s.ask a).status = .waiting q) :
    ((s.toLeaving a why).ask a).status = .none
      ∧ (s.toLeaving a why).askQueue = s.askQueue.filter (fun x => x.station != a) := by
  have hw : ((s.leaving a why).ask a).status = .waiting q := by rw [ask_leaving]; exact h
  unfold State.toLeaving
  rw [dropWaitingAsk_waiting hw, askQueue_leaving]
  refine ⟨?_, rfl⟩
  have hself := State.ask_updAsk_same (s.leaving a why) a (fun k => { k with status := .none })
  exact (congrArg AskRecord.status hself :)

theorem toLeaving_not_waiting (h : ∀ q, (s.ask a).status ≠ .waiting q) :
    (s.toLeaving a why).ask a = s.ask a ∧ (s.toLeaving a why).askQueue = s.askQueue := by
  unfold State.toLeaving
  rw [dropWaitingAsk_of_not (fun q => by rw [ask_leaving]; exact h q), ask_leaving, askQueue_leaving]
  exact ⟨rfl, rfl⟩

theorem lastAnswered_toLeaving (s : State) : ((s.toLeaving a why).ask a).lastAnswered = (s.ask a).lastAnswered := by
  unfold State.toLeaving
  rw [lastAnswered_dropWaitingAsk, ask_leaving]

end asks

/-! ## The words of an ABSENT station (R102, R125, R138, R139) -/

theorem exec_command_absent (h : s.ready) (hu : s.inUplinkSlot a) (ha : (s.station a).state = .absent) (b : UplinkBody) :
    exec (b.command ack) s = .next ((s.absentWord a b).goTo (s.timer.code.placeAfter a)) := by
  have hdecode : s.decodeWord a ack b = s.absentWord a b := by
    unfold State.decodeWord
    rw [ha]
  rw [exec_command_gone h hu (.inl ha), hdecode]

theorem absentWord_join (h : (s.station a).barred = false) : s.absentWord a .join = s.startJoin a :=
  if_neg (Bool.eq_false_iff.1 h)

theorem absentWord_stray {b : UplinkBody} (h : b ≠ .join ∨ (s.station a).barred = true) :
    s.absentWord a b = s.offerLeft a := by
  cases b with
  | join => exact if_pos (h.resolve_left (fun k => k rfl))
  | keep => rfl
  | ask f => rfl
  | drop g => rfl
  | renew g c => rfl
  | leave => rfl

theorem handNotice_room {n : Notice} (h : (s.station a).state.present = true)
    (hroom : (s.mailbox a).queue.length < Config.noticeLimit) : s.handNotice a n = s.updMailbox a (Mailbox.append n) := by
  unfold State.handNotice
  rw [if_pos h, if_neg (Nat.not_le.2 hroom)]

/-- The station record at the start of a join (R102). -/
def Station.joins (r : Station) : Station := { r with state := .joining, missed := 0, badWords := 0, clashes := 0 }

/-- The start of a join, before the JOINED notice. -/
def State.admitting (a : Nat) (s : State) : State :=
  ((s.updStation a (fun r => { r with missed := 0, badWords := 0, clashes := 0 })).moveStation a .joining).updMailbox a
    Mailbox.joining

theorem station_admitting (a : Nat) (s : State) (b : Nat) :
    (s.admitting a).station b = if b = a then (s.station a).joins else s.station b := by
  have hdrop : (s.admitting a).station b = ((s.updStation a
      (fun r => { r with missed := 0, badWords := 0, clashes := 0 })).moveStation a .joining).station b :=
    State.station_congr (State.stations_updMailbox _ _ _) b
  rw [hdrop, station_moveStation, State.station_updStation, State.station_updStation, if_pos rfl]
  split <;> rfl

theorem mailbox_admitting (a : Nat) (s : State) (b : Nat) :
    (s.admitting a).mailbox b = if b = a then (s.mailbox a).joining else s.mailbox b := by
  have hold : ∀ c, ((s.updStation a (fun r => { r with missed := 0, badWords := 0, clashes := 0 })).moveStation a
      .joining).mailbox c = s.mailbox c := fun c => State.mailbox_congr (by simp [State.moveStation]) c
  unfold State.admitting
  rw [State.mailbox_updMailbox, hold, hold]

theorem admitting_eq (a : Nat) (s : State) : s.admitting a =
    { s with stations := (s.admitting a).stations, mailboxes := (s.admitting a).mailboxes
             ints := s.ints.raise .station } := by
  unfold State.admitting State.moveStation State.updStation State.updMailbox State.raise
  rfl

theorem startJoin_eq (a : Nat) (s : State) : s.startJoin a =
    ((s.admitting a).updMailbox a (Mailbox.append .joined)).updAsk a (fun k => { k with lastAnswered := none }) := by
  have hnotice : (s.admitting a).handNotice a .joined = (s.admitting a).updMailbox a (Mailbox.append .joined) := by
    refine handNotice_room ?_ ?_
    · rw [station_admitting, if_pos rfl]
      rfl
    · rw [mailbox_admitting, if_pos rfl]
      exact Nat.zero_lt_succ _
  rw [← hnotice]
  rfl

theorem station_startJoin (a : Nat) (s : State) (b : Nat) :
    (s.startJoin a).station b = if b = a then (s.station a).joins else s.station b := by
  rw [startJoin_eq, State.station_congr (s := s.admitting a) (by simp), station_admitting]

theorem mailbox_startJoin (a : Nat) (s : State) (b : Nat) : (s.startJoin a).mailbox b =
    if b = a then { s.mailbox a with queue := [.joined], head := .unsent, nextSeq := 1 } else s.mailbox b := by
  have hdrop : (s.startJoin a).mailbox b = ((s.admitting a).updMailbox a (Mailbox.append .joined)).mailbox b := by
    rw [startJoin_eq]
    exact State.mailbox_congr (State.mailboxes_updAsk _ _ _) b
  rw [hdrop, State.mailbox_updMailbox, mailbox_admitting, mailbox_admitting, if_pos rfl]
  split <;> rfl

theorem ask_startJoin (a : Nat) (s : State) (b : Nat) :
    (s.startJoin a).ask b = if b = a then { s.ask a with lastAnswered := none } else s.ask b := by
  have hold : ∀ c, ((s.admitting a).updMailbox a (Mailbox.append .joined)).ask c = s.ask c := fun c =>
    State.ask_congr (by rw [State.asks_updMailbox, admitting_eq]) c
  rw [startJoin_eq, State.ask_updAsk, hold, hold]

theorem startJoin_shape (a : Nat) (s : State) : s.startJoin a =
    { s with stations := (s.startJoin a).stations, mailboxes := (s.startJoin a).mailboxes, asks := (s.startJoin a).asks
             ints := s.ints.raise .station } := by
  rw [startJoin_eq]
  unfold State.updAsk State.updMailbox
  rw [admitting_eq]

end Sys2Proof.Machine

namespace Sys2Proof.Proofs
open Sys2Proof.Machine

/-- Settles O25. -/
theorem leaveAndRejoin : Obligations.LeaveAndRejoin := by
  intro s a ack hready hu hm c why hc
  have honly := rosterOnly_acked (ack := ack) hm
  have hsame := honly.sameRecords
  have hexec : exec c s = .next (((s.acked a ack).enterLeaving a why).goTo (s.timer.code.placeAfter a)) := by
    rcases hc with ⟨rfl, rfl⟩ | ⟨rfl, rfl⟩
    · exact exec_command_member hready hu hm .leave
    · exact exec_command_member hready hu hm .join
  have hleaves := leaves_enterLeaving a why (s.acked a ack)
  generalize (s.acked a ack).enterLeaving a why = u at hexec hleaves
  have hout := hleaves.ousts
  have hask := hleaves.claim.ask
  refine ⟨_, hexec, ?_, ?_, hout.reason, hout.mailbox, fun q hq => ?_, fun q hq => ?_, ?_,
    fun n hn i hlt hplan ho hr => ?_, fun b hb => ⟨?_, ?_, ?_⟩, hout.flag.1, ?_, ?_⟩
  · exact congrArg (fun t : Timer => { t with timing := .running (s.timer.code.placeAfter a) })
      (hout.timer.trans hsame.timer)
  · exact hleaves.state.imp_right (fun h => ⟨h.1, h.2.1⟩)
  · obtain ⟨hstatus, hqueue⟩ := toLeaving_waiting why (s := s.acked a ack) (a := a) (by rw [honly.ask]; exact hq)
    rw [honly.askQueue] at hqueue
    exact ⟨(congrArg AskRecord.status (hask a)).trans hstatus, hleaves.claim.askQueue.trans hqueue⟩
  · obtain ⟨hkeep, hqueue⟩ := toLeaving_not_waiting why (s := s.acked a ack) (a := a)
      (fun x => by rw [honly.ask, hq]; nofun)
    rw [honly.askQueue] at hqueue
    rw [honly.ask] at hkeep
    exact ⟨(congrArg AskRecord.status ((hask a).trans hkeep)).trans hq, hleaves.claim.askQueue.trans hqueue⟩
  · exact (congrArg AskRecord.lastAnswered (hask a)).trans
      ((lastAnswered_toLeaving why (s.acked a ack)).trans (by rw [honly.ask]))
  · exact hleaves.plan n i hlt (by rw [hsame.planSlots]; exact mem_planSlots.2 ⟨hn, hplan⟩)
      (by rw [hsame.grant]; exact ho) (by rw [hsame.grant]; exact hr)
  · exact (hout.other b hb).1.trans ((station_acked hm b).trans ((station_heard a s b).trans (if_neg hb)))
  · exact (hout.other b hb).2.trans (mailbox_acked_other hb hm)
  · exact (hask b).trans ((ask_toLeaving_other why hb _).trans (honly.ask b))
  · exact hout.active.trans (by rw [hsame.map])
  · exact hout.commitCounter.trans hsame.commitCounter

/-- Settles O26. -/
theorem absentStationsJoinOrStray : Obligations.AbsentStationsJoinOrStray := by
  refine fun s a ack hready hu ha => ⟨fun hbarred => ?_, fun b hb => ?_⟩
  · have hexec := exec_command_absent (ack := ack) hready hu ha .join
    rw [absentWord_join hbarred] at hexec
    have hst := station_startJoin a s
    have hmb := mailbox_startJoin a s
    have hask := ask_startJoin a s
    have hshape := startJoin_shape a s
    generalize s.startJoin a = u at hexec hst hmb hask hshape
    refine ⟨_, hexec, (hst a).trans (if_pos rfl), fun b hb => ⟨(hst b).trans (if_neg hb), (hmb b).trans (if_neg hb),
      (hask b).trans (if_neg hb)⟩, (hmb a).trans (if_pos rfl), (hask a).trans (if_pos rfl), ?_⟩
    refine (congrArg (State.goTo (s.timer.code.placeAfter a)) hshape).trans ?_
    rfl
  · rw [exec_command_absent hready hu ha, absentWord_stray hb]
    unfold State.offerLeft
    by_cases h : (s.mailbox a).queue = [] ∧ (s.mailbox a).holdoff = 0
    · rw [if_pos h, if_pos h]
      rfl
    · rw [if_neg h, if_neg h]
      rfl

/-- Settles O27. -/
theorem departuresComplete : Obligations.DeparturesComplete := by
  refine fun s a hready => ⟨fun hl hz => ?_, fun hnot => ?_⟩
  · have hexec : exec (.departureComplete a) s = .next (s.departIfDone a.toNat) := exec_of_ready rfl hready
    have hdepart : s.departIfDone a.toNat = s.enterAbsent a.toNat := if_pos ⟨hl, hz⟩
    have hst := station_enterAbsent a.toNat s
    have hmb := mailbox_enterAbsent a.toNat s
    rw [hdepart] at hexec
    exact ⟨_, hexec, (hst _).trans (if_pos rfl), fun b hb => ⟨(hst b).trans (if_neg hb), (hmb b).trans (if_neg hb)⟩,
      (hmb _).trans (if_pos rfl), enterAbsent_eq a.toNat s⟩
  · have hexec : exec (.departureComplete a) s = .next (s.departIfDone a.toNat) := exec_of_ready rfl hready
    rw [hexec, State.departIfDone, if_neg (fun k => hnot.elim (fun h => h k.1) (fun h => h k.2))]

end Sys2Proof.Proofs
end

section
/-! The downlink arbitration: which stations are examined, served and given up (O28, O29; R140, R143 to R147). -/

namespace Sys2Proof.Machine

variable {s t u : State} {a : Nat}

/-! ## Eligibility and the send limit (R143, R146) -/

theorem eligible_iff (a : Nat) (s : State) : s.eligible a = true ↔ ∃ n q, (s.mailbox a).queue = n :: q
    ∧ ((((s.station a).state = .joining ∨ (s.station a).state = .member)
          ∧ ((s.mailbox a).head.sends = 0 ∨ (s.mailbox a).head.countdown = 0))
        ∨ ((s.station a).state = .absent ∧ n = .left)) := by
  unfold State.eligible
  cases hq : (s.mailbox a).queue with
  | nil => simp
  | cons n q => cases hst : (s.station a).state <;> simp [SendState.due]

theorem atSendLimit_iff (a : Nat) (s : State) : s.atSendLimit a = true ↔
    ((s.station a).state = .joining ∨ (s.station a).state = .member) ∧ 1 ≤ (s.mailbox a).head.sends
      ∧ s.cfg.sendLimit.toNat ≤ (s.mailbox a).head.sends := by
  simp [State.atSendLimit, and_assoc]

theorem eligible_congr (hm : t.mailbox a = s.mailbox a) (hs : t.station a = s.station a) :
    t.eligible a = s.eligible a := by
  unfold State.eligible
  rw [hm, hs]

theorem atSendLimit_congr (hm : t.mailbox a = s.mailbox a) (hs : t.station a = s.station a) (hc : t.cfg = s.cfg) :
    t.atSendLimit a = s.atSendLimit a := by
  unfold State.atSendLimit
  rw [hm, hs, hc]

theorem not_eligible_of_empty (h : (s.mailbox a).queue = []) : s.eligible a = false := by
  unfold State.eligible
  rw [h]

/-! ## A send (R140, R145) -/

/-- What a send makes of the station's mailbox. -/
def Mailbox.served (interval : BitVec 4) (m : Mailbox) : Mailbox :=
  if m.queue.head? = some .left then m.sentLeft else m.sent interval

/-- The words that a send of the head puts into the station's pair of slots. -/
def Mailbox.sends (a : Nat) (m : Mailbox) : List Word :=
  match m.queue with
  | [] => []
  | n :: _ => noticeWords a (if n = .left then 0 else m.sendSequence) n

theorem Mailbox.served_of_left {i : BitVec 4} {m : Mailbox} {q : List Notice} (h : m.queue = .left :: q) :
    m.served i = m.sentLeft := by
  unfold Mailbox.served
  rw [h]
  exact if_pos rfl

theorem Mailbox.served_of_ne_left {i : BitVec 4} {m : Mailbox} {n : Notice} {q : List Notice} (h : m.queue = n :: q)
    (hn : n ≠ .left) : m.served i = m.sent i := by
  unfold Mailbox.served
  rw [h]
  exact if_neg (fun k => hn (Option.some.inj k))

theorem serveStation_eq {n : Notice} {q : List Notice} (h : (s.mailbox a).queue = n :: q) : s.serveStation a =
    { s.updMailbox a (fun m => m.served s.cfg.retryInterval) with
      downlink := s.downlink ++ (s.mailbox a).sends a, arbiterPointer := a } := by
  have hbox : s.updMailbox a (fun m => if (n == .left) = true then m.sentLeft else m.sent s.cfg.retryInterval)
      = s.updMailbox a (fun m => m.served s.cfg.retryInterval) := by
    refine updMailbox_congr ?_
    unfold Mailbox.served
    rw [h]
    simp
  have hwords : noticeWords a (if (n == .left) = true then 0 else (s.mailbox a).sendSequence) n = (s.mailbox a).sends a := by
    unfold Mailbox.sends
    rw [h]
    simp
  unfold State.serveStation
  dsimp only
  rw [h]
  dsimp only
  rw [hbox, hwords]
  rfl

theorem mailbox_serveStation {n : Notice} {q : List Notice} (h : (s.mailbox a).queue = n :: q) (b : Nat) :
    (s.serveStation a).mailbox b = if b = a then (s.mailbox a).served s.cfg.retryInterval else s.mailbox b := by
  rw [serveStation_eq h]
  exact State.mailbox_updMailbox s a b (fun m => m.served s.cfg.retryInterval)

theorem station_serveStation {n : Notice} {q : List Notice} (h : (s.mailbox a).queue = n :: q) (b : Nat) :
    (s.serveStation a).station b = s.station b := by
  rw [serveStation_eq h]
  have hsame : (s.updMailbox a (fun m => m.served s.cfg.retryInterval)).station b = s.station b :=
    State.station_congr (State.stations_updMailbox _ _ _) b
  exact hsame

theorem serveStation_leaves {n : Notice} {q : List Notice} (h : (s.mailbox a).queue = n :: q) :
    (s.serveStation a).timer = s.timer ∧ (s.serveStation a).cfg = s.cfg ∧ (s.serveStation a).arbiterPointer = a := by
  rw [serveStation_eq h]
  have hsame : ∀ f, (s.updMailbox a f).timer = s.timer ∧ (s.updMailbox a f).cfg = s.cfg := fun f =>
    ⟨State.timer_updMailbox s a f, State.cfg_updMailbox s a f⟩
  obtain ⟨ht, hc⟩ := hsame (fun m => m.served s.cfg.retryInterval)
  exact ⟨ht, hc, rfl⟩

/-! ## The report of a station at the send limit (R104, R106, R146) -/

theorem ousts_reportNoAck (a : Nat) (s : State) : s.Ousts a .noAck (s.reportNoAck a) := by
  unfold State.reportNoAck
  split
  · exact ousts_failJoin a .noAck s
  · exact (leaves_enterLeaving a .noAck s).ousts

theorem reportNoAck_leaves (a : Nat) (s : State) : (s.reportNoAck a).downlink = s.downlink
    ∧ (s.reportNoAck a).arbiterPointer = s.arbiterPointer ∧ (s.reportNoAck a).cfg = s.cfg := by
  unfold State.reportNoAck
  split
  · rw [failJoin_eq]
    exact ⟨rfl, rfl, rfl⟩
  · have hclaim := (leaves_enterLeaving a .noAck s).claim
    rw [hclaim.downlink, hclaim.arbiterPointer, hclaim.cfg, toLeaving_eq]
    simp [State.leaving, State.emptyQueue, State.moveStation]

/-- What the report of NO_ACK makes of the station (R104, R106). -/
structure Station.Reported (r q : Station) : Prop where
  reason : q.leaveReason = some .noAck
  joining : r.state = .joining → q.state = .absent
  present : r.state ≠ .joining → (q.state = .leaving ∧ q.held ≠ 0) ∨ (q.state = .absent ∧ q.held = 0)

theorem Station.Reported.state {r q : Station} (h : r.Reported q) : q.state = .leaving ∨ q.state = .absent := by
  by_cases hr : r.state = .joining
  · exact .inr (h.joining hr)
  · exact (h.present hr).imp And.left And.left

theorem station_reportNoAck (a : Nat) (s : State) : (s.station a).Reported ((s.reportNoAck a).station a) := by
  refine ⟨(ousts_reportNoAck a s).reason, fun hj => ?_, fun hj => ?_⟩ <;> unfold State.reportNoAck
  · rw [if_pos hj, station_failJoin, if_pos rfl]
    rfl
  · rw [if_neg hj]
    exact (leaves_enterLeaving a .noAck s).state.imp_right (fun ⟨ha, hz, _⟩ => ⟨ha, hz⟩)

/-! ## Which stations are served and which are given up (R144, R146) -/

/-- Eligible and within the send limit. -/
def State.serves (s : State) (a : Nat) : Bool := s.eligible a && !s.atSendLimit a

/-- Eligible and at the send limit. -/
def State.givesUp (s : State) (a : Nat) : Bool := s.eligible a && s.atSendLimit a

/-- The stations served, in the order of examination, with `free` pairs of slots. -/
def State.servedIn (l : List Nat) (free : Nat) (s : State) : List Nat := (l.filter s.serves).take free

/-- The stations given up before the last pair is filled. -/
def State.goneIn (l : List Nat) (free : Nat) (s : State) : List Nat :=
  l.filter (fun a => s.givesUp a && decide ((l.takeWhile (fun b => b != a)).countP s.serves < free))

theorem goneIn_cons {b : Nat} {l : List Nat} (hb : b ∉ l) (free : Nat) (s : State) : s.goneIn (b :: l) free =
    (if s.givesUp b && decide (0 < free) then [b] else [])
      ++ s.goneIn l (if s.serves b then free - 1 else free) := by
  have hrest : ∀ a ∈ l, (s.givesUp a && decide (((b :: l).takeWhile (fun c => c != a)).countP s.serves < free))
      = (s.givesUp a && decide ((l.takeWhile (fun c => c != a)).countP s.serves
          < (if s.serves b then free - 1 else free))) := fun a ha => by
    have hne : (b != a) = true := by
      rw [bne_iff_ne]
      rintro rfl
      exact hb ha
    rw [List.takeWhile_cons, if_pos hne, List.countP_cons]
    congr 2
    by_cases hs : s.serves b = true
    · simp only [hs, if_true]
      exact propext (by omega)
    · simp [hs]
  unfold State.goneIn
  rw [List.filter_cons, List.filter_congr hrest]
  have hself : (b :: l).takeWhile (fun c => c != b) = [] := by simp
  rw [hself, List.countP_nil]
  split <;> rfl

theorem servedIn_cons (b : Nat) (l : List Nat) (free : Nat) (s : State) : s.servedIn (b :: l) (free + 1) =
    if s.serves b then b :: s.servedIn l free else s.servedIn l (free + 1) := by
  unfold State.servedIn
  rw [List.filter_cons]
  split <;> rfl

theorem lists_congr {l : List Nat} (h : ∀ a ∈ l, t.mailbox a = s.mailbox a ∧ t.station a = s.station a) (hc : t.cfg = s.cfg)
    (free : Nat) : t.servedIn l free = s.servedIn l free ∧ t.goneIn l free = s.goneIn l free := by
  have hs : ∀ a ∈ l, t.serves a = s.serves a := fun a ha => by
    obtain ⟨hm, hst⟩ := h a ha
    unfold State.serves
    rw [eligible_congr hm hst, atSendLimit_congr hm hst hc]
  have hg : ∀ a ∈ l, t.givesUp a = s.givesUp a := fun a ha => by
    obtain ⟨hm, hst⟩ := h a ha
    unfold State.givesUp
    rw [eligible_congr hm hst, atSendLimit_congr hm hst hc]
  refine ⟨?_, ?_⟩
  · unfold State.servedIn
    rw [List.filter_congr hs]
  · unfold State.goneIn
    refine List.filter_congr (fun a ha => ?_)
    rw [hg a ha, List.countP_congr (q := s.serves) (fun b hb => by rw [hs b ((List.takeWhile_sublist _).subset hb)])]

/-! ## The examination of the stations (R144) -/

/-- What an examination from `s` to `t` does that serves and gives up these stations. -/
structure Examined (served gone : List Nat) (s t : State) : Prop where
  downlink : t.downlink = s.downlink ++ served.flatMap (fun a => (s.mailbox a).sends a)
  pointer : t.arbiterPointer = served.getLastD s.arbiterPointer
  sent : ∀ a ∈ served, t.station a = s.station a ∧ t.mailbox a = (s.mailbox a).served s.cfg.retryInterval
  left : ∀ a ∈ gone, (s.station a).Reported (t.station a) ∧ (t.mailbox a).queue = []
  other : ∀ a, a ∉ served → a ∉ gone → t.station a = s.station a ∧ t.mailbox a = s.mailbox a
  timer : t.timer = s.timer
  shape : gone = [] → t = { s with
    downlink := t.downlink, mailboxes := t.mailboxes, arbiterPointer := t.arbiterPointer }

theorem Examined.refl (s : State) : Examined [] [] s s :=
  ⟨by simp, rfl, nofun, nofun, fun _ _ _ => ⟨rfl, rfl⟩, rfl, fun _ => rfl⟩

section steps
variable {n : Notice} {q : List Notice} {l gone : List Nat}

/-- One station served, and then the rest. -/
theorem Examined.serve (hq : (s.mailbox a).queue = n :: q) (hl : a ∉ l) (hg : a ∉ gone)
    (h : Examined l gone (s.serveStation a) t) : Examined (a :: l) gone s t := by
  have hmb := mailbox_serveStation hq
  have hst := station_serveStation hq
  obtain ⟨htimer, hcfg, hpointer⟩ := serveStation_leaves hq
  have hother : ∀ {b}, b ≠ a → (s.serveStation a).mailbox b = s.mailbox b := fun hb => (hmb _).trans (if_neg hb)
  have hsends : l.flatMap (fun b => ((s.serveStation a).mailbox b).sends b) = l.flatMap (fun b => (s.mailbox b).sends b) :=
    List.flatMap_congr (fun b hb => by rw [hother (fun he => hl (he ▸ hb))])
  refine ⟨?_, ?_, fun b hb => ?_, fun b hb => by rw [← hst b]; exact h.left b hb, fun b hb hbg => ?_, ?_, fun hnone => ?_⟩
  · rw [h.downlink, hsends, serveStation_eq hq, List.flatMap_cons, List.append_assoc]
  · rw [h.pointer, hpointer, List.getLastD_cons]
  · rcases List.mem_cons.1 hb with rfl | hb
    · obtain ⟨hs, hm⟩ := h.other b hl hg
      exact ⟨hs.trans (hst b), hm.trans ((hmb b).trans (if_pos rfl))⟩
    · obtain ⟨hs, hm⟩ := h.sent b hb
      rw [hother (fun he => hl (he ▸ hb)), hcfg] at hm
      exact ⟨hs.trans (hst b), hm⟩
  · obtain ⟨hne, hbl⟩ := not_or.1 (mt List.mem_cons.2 hb)
    obtain ⟨hs, hm⟩ := h.other b hbl hbg
    exact ⟨hs.trans (hst b), hm.trans (hother hne)⟩
  · exact h.timer.trans htimer
  · have hshape := h.shape hnone
    rw [serveStation_eq hq] at hshape
    unfold State.updMailbox at hshape
    exact hshape

/-- One station given up, and then the rest. -/
theorem Examined.giveUp (hl : a ∉ l) (hg : a ∉ gone) (h : Examined l gone (s.reportNoAck a) t) :
    Examined l (a :: gone) s t := by
  have hout := ousts_reportNoAck a s
  obtain ⟨hdown, hpointer, hcfg⟩ := reportNoAck_leaves a s
  have hsends : l.flatMap (fun b => ((s.reportNoAck a).mailbox b).sends b) = l.flatMap (fun b => (s.mailbox b).sends b) :=
    List.flatMap_congr (fun b hb => by rw [(hout.other b (fun he => hl (he ▸ hb))).2])
  refine ⟨?_, ?_, fun b hb => ?_, fun b hb => ?_, fun b hb hbg => ?_, h.timer.trans hout.timer, nofun⟩
  · rw [h.downlink, hsends, hdown]
  · rw [h.pointer, hpointer]
  · obtain ⟨hs, hm⟩ := h.sent b hb
    obtain ⟨hso, hmo⟩ := hout.other b (fun he => hl (he ▸ hb))
    rw [hmo, hcfg] at hm
    exact ⟨hs.trans hso, hm⟩
  · rcases List.mem_cons.1 hb with rfl | hb
    · obtain ⟨hs, hm⟩ := h.other b hl hg
      rw [hs, hm]
      exact ⟨station_reportNoAck b s, hout.mailbox⟩
    · have hne : b ≠ a := fun he => hg (he ▸ hb)
      rw [← (hout.other b hne).1]
      exact h.left b hb
  · obtain ⟨hne, hbg⟩ := not_or.1 (mt List.mem_cons.2 hbg)
    obtain ⟨hs, hm⟩ := h.other b hb hbg
    obtain ⟨hso, hmo⟩ := hout.other b hne
    exact ⟨hs.trans hso, hm.trans hmo⟩

end steps

theorem not_mem_lists {b : Nat} {l : List Nat} (hb : b ∉ l) (free : Nat) (s : State) :
    b ∉ s.servedIn l free ∧ b ∉ s.goneIn l free :=
  ⟨fun h => hb (List.mem_filter.1 (List.mem_of_mem_take h)).1, fun h => hb (List.mem_filter.1 h).1⟩

theorem examined_examine {l : List Nat} (hd : l.Nodup) (free : Nat) (s : State) :
    Examined (s.servedIn l free) (s.goneIn l free) s (State.examine l free s) := by
  induction l generalizing free s with
  | nil =>
    have hserved : s.servedIn [] free = [] := List.take_nil
    rw [hserved]
    exact Examined.refl s
  | cons a l ih =>
    obtain ⟨ha, hl⟩ := List.nodup_cons.1 hd
    cases free with
    | zero =>
      have hserved : s.servedIn (a :: l) 0 = [] := List.take_zero
      have hgone : s.goneIn (a :: l) 0 = [] := by simp [State.goneIn]
      rw [hserved, hgone]
      exact Examined.refl s
    | succ free =>
      rw [servedIn_cons, goneIn_cons ha]
      by_cases he : s.eligible a = true
      · by_cases hlim : s.atSendLimit a = true
        · have hserves : s.serves a = false := by simp [State.serves, hlim]
          have hgives : s.givesUp a = true := by simp [State.givesUp, he, hlim]
          have hexamine : State.examine (a :: l) (free + 1) s = State.examine l (free + 1) (s.reportNoAck a) := by
            rw [State.examine, if_pos he, if_pos hlim]
          have hlists := lists_congr (s := s) (t := s.reportNoAck a) (l := l)
            (fun b hb => And.symm ((ousts_reportNoAck a s).other b (fun k : b = a => ha (k ▸ hb))))
            (reportNoAck_leaves a s).2.2 (free + 1)
          have hrest := ih hl (free + 1) (s.reportNoAck a)
          rw [hlists.1, hlists.2] at hrest
          simp only [hserves, hgives, Bool.false_eq_true, if_false, Bool.true_and, Nat.zero_lt_succ, decide_true, if_true]
          rw [hexamine]
          exact hrest.giveUp (not_mem_lists ha _ s).1 (not_mem_lists ha _ s).2
        · have hserves : s.serves a = true := by simp [State.serves, he, hlim]
          have hgives : s.givesUp a = false := by simp [State.givesUp, hlim]
          obtain ⟨n, q, hq, -⟩ := (eligible_iff a s).1 he
          have hexamine : State.examine (a :: l) (free + 1) s = State.examine l free (s.serveStation a) := by
            rw [State.examine, if_pos he, if_neg hlim]
          have hlists := lists_congr (s := s) (t := s.serveStation a) (l := l) (fun b hb =>
            ⟨(mailbox_serveStation hq b).trans (if_neg (fun k : b = a => ha (k ▸ hb))), station_serveStation hq b⟩)
            (serveStation_leaves hq).2.1 free
          have hrest := ih hl free (s.serveStation a)
          rw [hlists.1, hlists.2] at hrest
          simp only [hserves, hgives, Bool.false_eq_true, if_false, Bool.false_and, if_true, Nat.add_sub_cancel, List.nil_append]
          rw [hexamine]
          exact hrest.serve hq (not_mem_lists ha _ s).1 (not_mem_lists ha _ s).2
      · have hserves : s.serves a = false := by simp [State.serves, he]
        have hgives : s.givesUp a = false := by simp [State.givesUp, he]
        have hexamine : State.examine (a :: l) (free + 1) s = State.examine l (free + 1) s := by
          rw [State.examine, if_neg he]
        simp only [hserves, hgives, Bool.false_eq_true, if_false, Bool.false_and, List.nil_append]
        rw [hexamine]
        exact ih hl (free + 1) s

/-! ## The order of examination (R144) -/

theorem mem_examinationOrder {p : Nat} (hp : p ≤ 47) : a ∈ examinationOrder p ↔ 1 ≤ a ∧ a ≤ 47 := by
  have hcount : Config.stationCount = 47 := rfl
  unfold examinationOrder
  rw [List.mem_append, List.mem_range'_1, List.mem_range'_1, hcount]
  omega

theorem nodup_examinationOrder (p : Nat) : (examinationOrder p).Nodup := by
  unfold examinationOrder
  refine List.nodup_append.2 ⟨List.nodup_range', List.nodup_range', fun a ha b hb => ?_⟩
  rw [List.mem_range'_1] at ha hb
  omega

/-- The lists of an examination in which one station alone can be eligible. -/
theorem filter_alone {l : List Nat} (hd : l.Nodup) (ha : a ∈ l) {p : Nat → Bool} (h : ∀ b ∈ l, b ≠ a → p b = false) :
    l.filter p = if p a then [a] else [] := by
  have hp : ∀ b ∈ l, p b = (p a && (b == a)) := fun b hb => by
    by_cases he : b = a
    · simp [he]
    · simp [he, h b hb he]
  rw [List.filter_congr hp]
  cases p a with
  | true =>
    simp only [Bool.true_and, if_true]
    rw [List.filter_beq, List.count_eq_one_of_mem hd ha]
    rfl
  | false => simp

theorem servedIn_alone {l : List Nat} (hd : l.Nodup) (ha : a ∈ l) (h : ∀ b, b ≠ a → s.eligible b = false) (free : Nat) :
    s.servedIn l (free + 1) = if s.serves a then [a] else [] := by
  unfold State.servedIn
  rw [filter_alone hd ha (fun b _ hb => by simp [State.serves, h b hb])]
  split <;> simp

theorem goneIn_alone {l : List Nat} (hd : l.Nodup) (ha : a ∈ l) (h : ∀ b, b ≠ a → s.eligible b = false) (free : Nat) :
    s.goneIn l (free + 1) = if s.givesUp a then [a] else [] := by
  have hcount : (l.takeWhile (fun b => b != a)).countP s.serves = 0 := by
    rw [List.countP_eq_zero]
    intro b hb
    have hne : b ≠ a := by simpa using List.mem_takeWhile_imp hb
    simp [State.serves, h b hne]
  unfold State.goneIn
  rw [filter_alone hd ha (fun b _ hb => by simp [State.givesUp, h b hb]), hcount]
  simp

theorem exec_arbitrate (h : s.ready) (ht : s.timer.timing = .running .arbitrationDue) :
    exec .downlinkArbitration s = .next (s.arbitrate.goTo (.slot 48)) := by
  rw [exec_arbitration h, arbitrateIfDue_of_due ht]

/-- The arbitration of a frame, by the stations that it serves and gives up (R143 to R146). -/
theorem examined_arbitrate (s : State) :
    Examined (s.servedIn (examinationOrder s.arbiterPointer) 8) (s.goneIn (examinationOrder s.arbiterPointer) 8)
      { s with downlink := [] } s.arbitrate :=
  examined_examine (nodup_examinationOrder s.arbiterPointer) 8 { s with downlink := [] }

theorem sends_of_eq {n : Notice} {q : List Notice} {m : Mailbox} (h : m.queue = n :: q) :
    m.sends a = noticeWords a (if n = .left then 0 else m.sendSequence) n := by
  unfold Mailbox.sends
  rw [h]

section alone

/-- The lists of an arbitration in which station `a` alone has a notice. -/
theorem lists_alone (ha : 1 ≤ a) (ha' : a ≤ 47) (hp : s.arbiterPointer ≤ 47) (h : ∀ b, b ≠ a → (s.mailbox b).queue = []) :
    s.servedIn (examinationOrder s.arbiterPointer) 8 = (if s.serves a then [a] else [])
      ∧ s.goneIn (examinationOrder s.arbiterPointer) 8 = (if s.givesUp a then [a] else []) := by
  have hmem := (mem_examinationOrder hp).2 ⟨ha, ha'⟩
  have hnone : ∀ b, b ≠ a → s.eligible b = false := fun b hb => not_eligible_of_empty (h b hb)
  exact ⟨servedIn_alone (nodup_examinationOrder _) hmem hnone 7, goneIn_alone (nodup_examinationOrder _) hmem hnone 7⟩

/-- Station `a` alone has a notice, is eligible and below the send limit. -/
theorem exec_arbitration_serves {n : Notice} {q : List Notice} (hready : s.ready)
    (ht : s.timer.timing = .running .arbitrationDue) (ha : 1 ≤ a) (ha' : a ≤ 47) (hp : s.arbiterPointer ≤ 47)
    (hq : (s.mailbox a).queue = n :: q) (h : ∀ b, b ≠ a → (s.mailbox b).queue = []) (he : s.eligible a = true)
    (hl : s.atSendLimit a = false) : ∃ t, exec .downlinkArbitration s = .next t
      ∧ t.downlink = noticeWords a (if n = .left then 0 else (s.mailbox a).sendSequence) n ∧ t.arbiterPointer = a
      ∧ t.mailbox a = (s.mailbox a).served s.cfg.retryInterval
      ∧ (∀ b, b ≠ a → t.mailbox b = s.mailbox b)
      ∧ t = { s with timer := { s.timer with timing := .running (.slot 48) }, downlink := t.downlink
                     mailboxes := t.mailboxes, arbiterPointer := a } := by
  have hex := examined_arbitrate s
  obtain ⟨hserved, hgone⟩ := lists_alone ha ha' hp h
  have hserves : s.serves a = true := by simp [State.serves, he, hl]
  have hgives : s.givesUp a = false := by simp [State.givesUp, hl]
  simp only [hserves, hgives, Bool.false_eq_true, if_false, if_true] at hserved hgone
  rw [hserved, hgone] at hex
  generalize hu : s.arbitrate = u at hex
  refine ⟨u.goTo (.slot 48), (exec_arbitrate hready ht).trans (by rw [hu]), ?_, hex.pointer,
    (hex.sent a (List.mem_singleton.2 rfl)).2, fun b hb => (hex.other b (by simpa using hb) nofun).2, ?_⟩
  · rw [← sends_of_eq hq]
    exact hex.downlink.trans (List.append_nil _)
  · have hshape := hex.shape rfl
    have hpointer : u.arbiterPointer = a := hex.pointer
    rw [hpointer] at hshape
    exact congrArg (State.goTo (.slot 48)) hshape

/-- Station `a` alone has a notice, is eligible and has reached the send limit. -/
theorem exec_arbitration_givesUp (hready : s.ready)
    (ht : s.timer.timing = .running .arbitrationDue) (ha : 1 ≤ a) (ha' : a ≤ 47) (hp : s.arbiterPointer ≤ 47)
    (h : ∀ b, b ≠ a → (s.mailbox b).queue = []) (he : s.eligible a = true)
    (hl : s.atSendLimit a = true) : ∃ t, exec .downlinkArbitration s = .next t
      ∧ t.downlink = [] ∧ t.arbiterPointer = s.arbiterPointer
      ∧ (s.station a).Reported (t.station a) ∧ (t.mailbox a).queue = []
      ∧ (∀ b, b ≠ a → t.station b = s.station b ∧ t.mailbox b = s.mailbox b)
      ∧ t.timer = { s.timer with timing := .running (.slot 48) } := by
  have hex := examined_arbitrate s
  obtain ⟨hserved, hgone⟩ := lists_alone ha ha' hp h
  have hserves : s.serves a = false := by simp [State.serves, hl]
  have hgives : s.givesUp a = true := by simp [State.givesUp, he, hl]
  simp only [hserves, hgives, Bool.false_eq_true, if_false, if_true] at hserved hgone
  rw [hserved, hgone] at hex
  generalize hu : s.arbitrate = u at hex
  obtain ⟨hreport, hqueue⟩ := hex.left a (List.mem_singleton.2 rfl)
  exact ⟨u.goTo (.slot 48), (exec_arbitrate hready ht).trans (by rw [hu]), hex.downlink, hex.pointer, hreport, hqueue,
    fun b hb => hex.other b nofun (by simpa using hb), congrArg (fun t : Timer => { t with timing := .running (.slot 48) })
      hex.timer⟩

end alone

end Sys2Proof.Machine

namespace Sys2Proof.Proofs
open Sys2Proof.Machine

/-- Settles O28: the arbitration of the one station that has a notice, served or given up. -/
theorem arbitrationSendsTheHead : Obligations.ArbitrationSendsTheHead := by
  refine ⟨fun s a n q hready ht h1 h47 _ hp hq halone => ⟨fun hstate hn => ⟨fun hfirst => ?_,
    fun seq hsent hbelow hdue hseq => ?_⟩, fun habs hleft => ?_⟩,
    fun s a hready ht h1 h47 _ hp hq halone hsent hdue hlim hstate => ?_⟩
  · obtain ⟨hzero, hseq⟩ := hfirst
    have he := (eligible_iff a s).2 ⟨n, q, hq, .inl ⟨hstate, .inl hzero⟩⟩
    have hl : s.atSendLimit a = false := Bool.eq_false_iff.2 (fun k => by
      obtain ⟨-, hone, -⟩ := (atSendLimit_iff a s).1 k
      omega)
    obtain ⟨t, hexec, hdown, hpointer, hbox, hother, hshape⟩ := exec_arbitration_serves hready ht h1 h47 hp hq halone he hl
    refine ⟨t, hexec, ?_, hpointer, ?_, hother, hshape⟩
    · rw [hdown, if_neg hn, Mailbox.sendSequence, hseq]
      rfl
    · rw [hbox, Mailbox.served_of_ne_left hq hn]
      simp [Mailbox.sent, Mailbox.sendSequence, hseq, hzero, nextSequence]
  · have he := (eligible_iff a s).2 ⟨n, q, hq, .inl ⟨hstate, .inr hdue⟩⟩
    have hl : s.atSendLimit a = false := Bool.eq_false_iff.2 (fun k => by
      obtain ⟨-, -, hlim⟩ := (atSendLimit_iff a s).1 k
      omega)
    obtain ⟨t, hexec, hdown, hpointer, hbox, -, hshape⟩ := exec_arbitration_serves hready ht h1 h47 hp hq halone he hl
    refine ⟨t, hexec, ?_, hpointer, ?_, hshape⟩
    · rw [hdown, if_neg hn, Mailbox.sendSequence, hseq]
      rfl
    · rw [hbox, Mailbox.served_of_ne_left hq hn]
      simp [Mailbox.sent, Mailbox.sendSequence, hseq]
  · have he := (eligible_iff a s).2 ⟨n, q, hq, .inr ⟨habs, hleft⟩⟩
    have hl : s.atSendLimit a = false := Bool.eq_false_iff.2 (fun k => by
      obtain ⟨hs, -, -⟩ := (atSendLimit_iff a s).1 k
      rw [habs] at hs
      exact hs.elim nofun nofun)
    obtain ⟨t, hexec, hdown, hpointer, hbox, -, hshape⟩ := exec_arbitration_serves hready ht h1 h47 hp hq halone he hl
    refine ⟨t, hexec, ?_, hpointer, ?_, hshape⟩
    · rw [hdown, hleft, if_pos rfl]
    · rw [hleft] at hq
      rw [hbox, Mailbox.served_of_left hq, Mailbox.sentLeft, Mailbox.removeHead, hq]
      rfl
  · obtain ⟨n, q, hcons⟩ := List.exists_cons_of_ne_nil hq
    have he := (eligible_iff a s).2 ⟨n, q, hcons, .inl ⟨hstate, .inr hdue⟩⟩
    have hl := (atSendLimit_iff a s).2 ⟨hstate, hsent, hlim⟩
    obtain ⟨t, hexec, hdown, hpointer, hreport, hqueue, hother, htimer⟩ :=
      exec_arbitration_givesUp hready ht h1 h47 hp halone he hl
    exact ⟨t, hexec, hdown, hpointer, hreport.reason, hqueue, hother, hreport.joining,
      fun hm => hreport.present (by rw [hm]; nofun), htimer⟩

/-- Settles O29: by the stations that the examination serves and gives up (`examined_arbitrate`). -/
theorem arbitrationServesInOrder : Obligations.ArbitrationServesInOrder := by
  refine ⟨fun s a => eligible_iff a s, fun s a => atSendLimit_iff a s,
    fun s order served gone hready htiming h1 h47 horder hserved hgone => ?_⟩
  have hex := examined_arbitrate s
  have hsv : s.servedIn (examinationOrder s.arbiterPointer) 8 = served := by rw [hserved, horder]; rfl
  have hgn : s.goneIn (examinationOrder s.arbiterPointer) 8 = gone := by rw [hgone, horder]; rfl
  rw [hsv, hgn] at hex
  generalize hu : s.arbitrate = u at hex
  refine ⟨u.goTo (.slot 48), (exec_arbitrate hready htiming).trans (by rw [hu]), ?_, hex.pointer, fun a ha => ⟨?_, fun q hq => ?_,
    fun n q hq hn => ?_⟩, fun a ha => ⟨(hex.left a ha).1.reason, (hex.left a ha).2, (hex.left a ha).1.state⟩, hex.other, ?_⟩
  · refine hex.downlink.trans ?_
    rw [List.nil_append]
    refine List.flatMap_congr (fun a _ => ?_)
    have hbox : ∀ m : Mailbox, m.sends a = match m.queue with
        | [] => []
        | n :: _ => noticeWords a (if n = .left then 0 else m.head.sequence.getD m.nextSeq) n := fun m => by
      unfold Mailbox.sends
      cases m.queue <;> rfl
    exact hbox _
  · exact congrArg Station.state (hex.sent a ha).1
  · refine (hex.sent a ha).2.trans ?_
    have hsame : ({ s with downlink := [] } : State).mailbox a = s.mailbox a := rfl
    rw [hsame, Mailbox.served_of_left hq, Mailbox.sentLeft, Mailbox.removeHead, hq]
    rfl
  · have hbox : u.mailbox a = (s.mailbox a).sent s.cfg.retryInterval := by
      refine (hex.sent a ha).2.trans ?_
      have hsame : ({ s with downlink := [] } : State).mailbox a = s.mailbox a := rfl
      rw [hsame, Mailbox.served_of_ne_left hq hn]
    have hqueue : (u.mailbox a).queue = (s.mailbox a).queue := by rw [hbox]; rfl
    have hhead : (u.mailbox a).head = ((s.mailbox a).sent s.cfg.retryInterval).head := by rw [hbox]
    exact ⟨hqueue, hhead⟩
  · exact congrArg (fun t : Timer => { t with timing := .running (.slot 48) }) hex.timer

end Sys2Proof.Proofs
end

section
/-! A placement that ends without a commit (O37; R29, R77, R79). -/

namespace Sys2Proof.Machine

variable {s t u v : State} {a i : Nat} {c : Context}

/-! ## The record handed back (R29) -/

/-- The state in which station `a` has given record `i` back, told as one report to the Roster. -/
structure State.GivesBack (a i : Nat) (s u : State) : Prop where
  claim : ClaimOnly s u
  map : u.map = s.map
  freeQueue : u.freeQueue = i :: s.freeQueue
  self : u.grant i = Grant.freeWith (s.grant i).generation
  others : ∀ j, j ≠ i → u.grant j = s.grant j
  station : ∀ b, u.station b = if b = a then (s.station a).released else s.station b
  boxes : ∀ b, b ≠ a → u.mailbox b = s.mailbox b
  box : u.mailbox a = s.mailbox a ∨ ((s.station a).state = .leaving ∧ u.mailbox a = (s.mailbox a).emptied)

theorem mailbox_holdOneFewer (a b : Nat) (s : State) : (s.holdOneFewer (some a)).mailbox b = s.mailbox b
    ∨ (b = a ∧ (s.station a).state = .leaving ∧ (s.holdOneFewer (some a)).mailbox b = (s.mailbox a).emptied) := by
  have hdepart := mailbox_departIfDone (s.updStation a (fun r => { r with held := r.held - 1 })) a b
  have hsame : ∀ d, (s.updStation a (fun r => { r with held := r.held - 1 })).mailbox d = s.mailbox d := fun d => rfl
  rw [State.station_updStation, if_pos rfl, hsame, hsame] at hdepart
  by_cases h : b = a ∧ (s.station a).state = .leaving ∧ (s.station a).held - 1 = 0
  · exact .inr ⟨h.1, h.2.1, hdepart.trans (if_pos h)⟩
  · exact .inl (hdepart.trans (if_neg h))

/-- The record freed, before its owner is told. -/
def State.unreserved (i : Nat) (s : State) : State :=
  { s.updGrant i (fun g => Grant.freeWith g.generation) with freeQueue := i :: s.freeQueue }

theorem grant_unreserved (i j : Nat) (s : State) :
    (s.unreserved i).grant j = if j = i then Grant.freeWith (s.grant i).generation else s.grant j :=
  State.grant_updGrant s i j (fun g => Grant.freeWith g.generation)

theorem returnRecord_eq (ho : (s.grant i).owner = some a) : s.returnRecord i = (s.unreserved i).holdOneFewer (some a) := by
  unfold State.returnRecord
  rw [ho]
  rfl

theorem givesBack_returnRecord (ho : (s.grant i).owner = some a) : s.GivesBack a i (s.returnRecord i) := by
  have hfreed : ClaimOnly s (s.unreserved i) := rfl
  have hmap : (s.unreserved i).map = s.map := rfl
  have hqueue : (s.unreserved i).freeQueue = i :: s.freeQueue := rfl
  have hstation : ∀ b, (s.unreserved i).station b = s.station b := fun _ => rfl
  have hmailbox : ∀ b, (s.unreserved i).mailbox b = s.mailbox b := fun _ => rfl
  have hgrant := fun j => grant_unreserved i j s
  rw [returnRecord_eq ho]
  generalize s.unreserved i = w at hfreed hmap hqueue hstation hmailbox hgrant
  have hkept : ∀ j, (w.holdOneFewer (some a)).grant j = w.grant j := State.grant_congr (grants_holdOneFewer w _)
  have hbox := fun b => mailbox_holdOneFewer a b w
  refine ⟨hfreed.trans (claimOnly_holdOneFewer _), (map_holdOneFewer _ _).trans hmap,
    (freeQueue_holdOneFewer w _).trans hqueue, ?_, fun j hj => ?_, fun b => ?_, fun b hb => ?_, ?_⟩
  · rw [hkept, hgrant, if_pos rfl]
  · rw [hkept, hgrant, if_neg hj]
  · rw [station_holdOneFewer, hstation]
    by_cases hb : b = a
    · subst hb
      rw [if_pos rfl, if_pos rfl]
    · rw [if_neg (fun k => hb (Option.some.inj k).symm), if_neg hb]
  · rw [← hmailbox b]
    exact (hbox b).resolve_right (fun k => hb k.1)
  · rw [← hmailbox a, ← hstation a]
    exact (hbox a).imp_right And.right

theorem released_state (r : Station) : r.released.held = r.held - 1
    ∧ (r.state = .leaving → r.held ≤ 1 → r.released.state = .absent)
    ∧ (r.state ≠ .leaving ∨ 2 ≤ r.held → r.released.state = r.state) := by
  unfold Station.released
  split
  · rename_i h
    exact ⟨rfl, fun _ _ => rfl, fun k => absurd h.1 (k.resolve_right (by omega))⟩
  · rename_i h
    exact ⟨rfl, fun hl hz => absurd ⟨hl, by omega⟩ h, fun _ => rfl⟩

/-- The placement ended after the record went back: the asks and the notices of its own station may still change. -/
theorem State.GivesBack.recordReturned (h : s.GivesBack c.station i u) (hn : NoticeOnly u v)
    (hboxes : ∀ b, b ≠ c.station → v.mailbox b = u.mailbox b)
    (ht : t = { v with engine := { s.engine with context := none }, asks := t.asks, port := t.port, ints := t.ints })
    (hasks : ∀ b, b ≠ c.station → t.ask b = s.ask b) : s.recordReturned c i t := by
  obtain ⟨hheld, habsent, hstays⟩ := released_state (s.station c.station)
  have hstation : ∀ b, t.station b = if b = c.station then (s.station c.station).released else s.station b := fun b => by
    rw [← h.station b, ← hn.station b]
    exact State.station_congr (by rw [ht]) b
  have hself := hstation c.station
  rw [if_pos rfl] at hself
  have hgrant : ∀ j, t.grant j = u.grant j := fun j => by
    rw [← hn.grant j]
    exact State.grant_congr (by rw [ht]) j
  have hmailbox : ∀ b, t.mailbox b = v.mailbox b := fun b => State.mailbox_congr (by rw [ht]) b
  refine ⟨by rw [ht], ?_, ?_, fun j hj => ?_, ?_, ?_, ?_, fun b hb => ⟨?_, ?_, hasks b hb⟩, ?_, ?_, ?_, ?_⟩
  · rw [← h.freeQueue, ← hn.freeQueue, ht]
  · rw [hgrant, h.self]
  · rw [hgrant, h.others j hj]
  · rw [hself, hheld]
  · rw [hself]
    exact habsent
  · rw [hself]
    exact hstays
  · rw [hstation, if_neg hb]
  · rw [hmailbox, hboxes b hb, h.boxes b hb]
  · rw [← h.map, ← hn.map, ht]
  · rw [← (h.claim.trans hn.claimOnly).commitCounter, ht]
  · rw [← (h.claim.trans hn.claimOnly).askQueue, ht]
  · rw [← (h.claim.trans hn.claimOnly).timer, ht]

/-! ## The placement ended (R76, R79) -/

theorem endPlacement_eq (s : State) : s.endPlacement = { s with engine := { s.engine with context := none } } := rfl

theorem answerLocal_of_no_requests {e : Quad} (r : Answer) (hp : s.port.inProgress = some e) (hq : s.port.requests = []) :
    s.answerLocal r =
      { s with port := { s.port with inProgress := none, results := s.port.results ++ [resultEntry e 0 r] }
               ints := s.ints.raise .result } := by
  unfold State.answerLocal
  rw [hp]
  exact handBack_of_no_requests e r hq

theorem commitPoint_of_context (h : s.engine.context = some c) : s.commitPoint = s.endWith c := by
  unfold State.commitPoint
  rw [h]

theorem endWith_gone (h : (s.station c.station).state ≠ .member ∧ (s.station c.station).state ≠ .quiet) :
    s.endWith c = s.abandon c := by
  unfold State.endWith
  exact if_neg (fun k => not_or.2 h (inMembership_iff.1 k))

theorem endWith_retired (h : (s.station c.station).state = .member ∨ (s.station c.station).state = .quiet)
    (hr : c.kind.retiredIn s = true) : s.endWith c = s.endPlacement.answerLocal (.refused .retiring) := by
  unfold State.endWith
  rw [if_pos (inMembership_iff.2 h), if_pos hr]

theorem endWith_noRoom (h : (s.station c.station).state = .member ∨ (s.station c.station).state = .quiet)
    (hr : c.kind.retiredIn s = false) (ho : c.outcome = .noRoom) : s.endWith c = s.endNoRoom c := by
  unfold State.endWith
  rw [if_pos (inMembership_iff.2 h), if_neg (Bool.eq_false_iff.1 hr), ho]

theorem endWith_chosen {l : List Nat} {w : List Handle}
    (h : (s.station c.station).state = .member ∨ (s.station c.station).state = .quiet)
    (hr : c.kind.retiredIn s = false) (ho : c.outcome = .chosen l w) : s.endWith c = s.commit c l w := by
  unfold State.endWith
  rw [if_pos (inMembership_iff.2 h), if_neg (Bool.eq_false_iff.1 hr), ho]

theorem resizeRetired_iff {h : Handle} : s.resizeRetired h = true ↔
    s.handlePasses h = false ∨ (s.grant h.index.toNat).state = .draining := by
  unfold State.resizeRetired
  simp

/-- A placement of a new grant that ends in a result: the record goes back and the request is refused. -/
theorem ends_refused {e : Quad} (st : Status) (ho : (s.grant i).owner = some c.station) (hp : s.port.inProgress = some e)
    (hq : s.port.requests = []) :
    let t := (s.returnRecord i).endPlacement.answerLocal (.refused st)
    s.recordReturned c i t
      ∧ t.port = { s.port with inProgress := none, results := s.port.results ++ [resultEntry e 0 (.refused st)] }
      ∧ t.ints.isSet .result = true ∧ t.asks = s.asks := by
  have hback := givesBack_returnRecord ho
  generalize s.returnRecord i = u at hback
  have hengine := hback.claim.engine
  have hport := hback.claim.port
  have hasks := hback.claim.asks
  intro t
  have ht : t = { u.endPlacement with
      port := { s.port with inProgress := none, results := s.port.results ++ [resultEntry e 0 (.refused st)] }
      ints := u.ints.raise .result } := by
    rw [← hport]
    exact answerLocal_of_no_requests (s := u.endPlacement) (.refused st) (by rw [← hp, ← hport]; rfl)
      (by rw [← hq, ← hport]; rfl)
  have hta : t.asks = s.asks := by
    rw [ht, ← hasks]
    rfl
  refine ⟨hback.recordReturned (.refl u) (fun _ _ => rfl) ?_ (fun b _ => State.ask_congr hta b), by rw [ht], ?_, hta⟩
  · rw [ht, endPlacement_eq, ← hengine]
  · rw [ht]
    exact (flag_raise .result u).1

/-- An ask whose station has left: the record goes back and nothing is said. -/
theorem ask_dropped (ho : (s.grant i).owner = some c.station) :
    let t := ((s.returnRecord i).setAsk c.station .none).endPlacement
    s.recordReturned c i t ∧ t.port = s.port ∧ (t.ask c.station).status = .none
      ∧ (t.ask c.station).lastAnswered = (s.ask c.station).lastAnswered
      ∧ ((t.mailbox c.station).queue = (s.mailbox c.station).queue ∨ (t.mailbox c.station).queue = []) := by
  have hback := givesBack_returnRecord ho
  generalize s.returnRecord i = u at hback
  have hengine := hback.claim.engine
  have hask := fun b => (ask_setAsk c.station .none u b)
  intro t
  have hself : t.ask c.station = { s.ask c.station with status := .none } := by
    rw [← hback.claim.ask]
    exact (hask c.station).trans (if_pos rfl)
  refine ⟨hback.recordReturned (.refl u) (fun _ _ => rfl) ?_ (fun b hb => ?_), hback.claim.port, by rw [hself],
    by rw [hself], ?_⟩
  · rw [← hengine]
    rfl
  · rw [← hback.claim.ask]
    exact (hask b).trans (if_neg hb)
  · have hbox : t.mailbox c.station = u.mailbox c.station := rfl
    rw [hbox]
    rcases hback.box with h | ⟨-, h⟩
    · exact .inl (by rw [h])
    · exact .inr (by rw [h]; rfl)

/-- An ask for which no slots are found: the record goes back and the ask is refused. -/
theorem ask_refused (seq : BitVec 4) (ho : (s.grant i).owner = some c.station)
    (hm : (s.station c.station).state = .member ∨ (s.station c.station).state = .quiet) :
    let t := (((s.returnRecord i).setAsk c.station .none).answerAsk c.station seq
      (.refusedAsk .noRoom seq)).endPlacement
    s.recordReturned c i t ∧ t.port = s.port ∧ (t.ask c.station).status = .none
      ∧ (t.ask c.station).lastAnswered = some seq ∧ s.queues c.station [.refusedAsk .noRoom seq] t := by
  have hback := givesBack_returnRecord ho
  generalize s.returnRecord i = u at hback
  have hengine := hback.claim.engine
  have hnotice := noticeOnly_handNotice c.station (.refusedAsk .noRoom seq) u
  have hask : ∀ b, ((u.setAsk c.station .none).answerAsk c.station seq (.refusedAsk .noRoom seq)).ask b
      = if b = c.station then { status := .none, lastAnswered := some seq } else u.ask b := fun b => by
    rw [ask_answerAsk, ask_setAsk, if_pos rfl, ask_setAsk]
    split <;> rfl
  intro t
  have hself : t.ask c.station = { status := .none, lastAnswered := some seq } := (hask _).trans (if_pos rfl)
  have hmailbox : ∀ b, t.mailbox b = (u.handNotice c.station (.refusedAsk .noRoom seq)).mailbox b := fun b => by
    have hsame : t.mailbox b = ((u.setAsk c.station .none).handNotice c.station (.refusedAsk .noRoom seq)).mailbox b := rfl
    rw [hsame, State.setAsk, handNotice_updAsk]
    rfl
  have hleaving : (s.station c.station).state ≠ .leaving := fun k => by
    rw [k] at hm
    exact hm.elim nofun nofun
  refine ⟨hback.recordReturned hnotice (fun b hb => mailbox_handNotice_other hb _) ?_ (fun b hb => ?_), ?_, by rw [hself],
    by rw [hself], ?_⟩
  · have hshape : t = (((u.handNotice c.station (.refusedAsk .noRoom seq)).updAsk c.station (fun k => { k with status := .none })).updAsk
        c.station (fun k => { k with lastAnswered := some seq })).endPlacement := by
      rw [← handNotice_updAsk]
      rfl
    rw [hshape, ← hengine, ← hnotice.claimOnly.engine]
    rfl
  · rw [← hback.claim.ask]
    exact (hask b).trans (if_neg hb)
  · rw [← hback.claim.port, ← hnotice.claimOnly.port]
    have hport : t.port = ((u.setAsk c.station .none).handNotice c.station (.refusedAsk .noRoom seq)).port := rfl
    rw [hport, State.setAsk, handNotice_updAsk]
    rfl
  · intro hp hlen
    have hstation : u.station c.station = { s.station c.station with held := (s.station c.station).held - 1 } := by
      rw [hback.station, if_pos rfl, Station.released, if_neg (fun k => hleaving k.1)]
    have hbox : u.mailbox c.station = s.mailbox c.station := hback.box.resolve_right (fun k => hleaving k.1)
    rw [hmailbox, ← hbox]
    refine queue_handNotice (by rw [hstation]; exact hp) ?_
    rw [hbox]
    simpa using hlen

end Sys2Proof.Machine

namespace Sys2Proof.Proofs
open Sys2Proof.Machine

/-- Settles O37: the record goes back (`givesBack_returnRecord`), and each kind ends in its own way. -/
theorem placementsEndWithoutACommit : Obligations.PlacementsEndWithoutACommit := by
  intro s c gone noRoom hready hcontext hrequests hgone hnoRoom
  have hexec : exec .commitPoint s = .next (s.endWith c) := by
    rw [exec_commitPoint hready.1 hready.2, commitPoint_of_context hcontext]
  have hmember : noRoom → (s.station c.station).state = .member ∨ (s.station c.station).state = .quiet := fun hn => by
    by_contra hk
    exact (hnoRoom.1 hn).1 (hgone.2 (not_or.1 hk))
  refine ⟨fun i lease e st hkind hp ho hcause => ?_, fun i seq code hkind ho hcause => ?_, fun h e st hkind hp hcause => ?_⟩
  · have hends : s.endWith c = (s.returnRecord i).endPlacement.answerLocal (.refused st) := by
      rcases hcause with ⟨hg, rfl⟩ | ⟨hn, rfl⟩
      · rw [endWith_gone (hgone.1 hg), State.abandon, hkind]
      · rw [endWith_noRoom (hmember hn) (by rw [hkind]; rfl) (hnoRoom.1 hn).2, State.endNoRoom, hkind]
    obtain ⟨hret, hport, hflag, hasks⟩ := ends_refused st ho hp hrequests
    rw [← hends] at hret hport hflag hasks
    exact ⟨s.endWith c, _, hexec, hret, hport, refuses_resultEntry e st, hflag, hasks⟩
  · rcases hcause with hg | hn
    · have hends : s.endWith c = ((s.returnRecord i).setAsk c.station .none).endPlacement := by
        rw [endWith_gone (hgone.1 hg), State.abandon, hkind]
      obtain ⟨hret, hport, hstatus, hlast, hbox⟩ := ask_dropped (s := s) (i := i) ho
      rw [← hends] at hret hport hstatus hlast hbox
      exact ⟨s.endWith c, hexec, hret, hport, hstatus, fun _ => ⟨hlast, hbox⟩, fun hn => absurd hg (hnoRoom.1 hn).1⟩
    · have hends : s.endWith c = (((s.returnRecord i).setAsk c.station .none).answerAsk c.station seq
          (.refusedAsk .noRoom seq)).endPlacement := by
        rw [endWith_noRoom (hmember hn) (by rw [hkind]; rfl) (hnoRoom.1 hn).2, State.endNoRoom, hkind]
      obtain ⟨hret, hport, hstatus, hlast, hqueue⟩ := ask_refused seq ho (hmember hn)
      rw [← hends] at hret hport hstatus hlast hqueue
      exact ⟨s.endWith c, hexec, hret, hport, hstatus, fun hg => absurd hg (hnoRoom.1 hn).1, fun _ => ⟨hlast, hqueue⟩⟩
  · have hends : s.endWith c = s.endPlacement.answerLocal (.refused st) := by
      rcases hcause with ⟨hg, rfl⟩ | ⟨hn, hpass, hstate, rfl⟩
      · rw [endWith_gone (hgone.1 hg), State.abandon, hkind]
      · have hstands : c.kind.retiredIn s = false := by
          rw [hkind]
          refine Bool.eq_false_iff.2 (fun k => ?_)
          rcases resizeRetired_iff.1 k with hk | hk
          · exact absurd (hk.symm.trans hpass) Bool.false_ne_true
          · exact hstate hk
        rw [endWith_noRoom (hmember hn) hstands (hnoRoom.1 hn).2, State.endNoRoom, hkind]
    rw [hends, answerLocal_of_no_requests (s := s.endPlacement) (e := e) (.refused st) hp hrequests] at hexec
    exact ⟨_, _, hexec, refuses_resultEntry e st, rfl⟩

end Sys2Proof.Proofs
end

section
/-! Recorded changes: the epoch they join, the counts of one record, and the effective frames of the records that they do
not name (R19, R38, R39, R42, R43). -/

namespace Sys2Proof.Machine

variable {s t u : State} {i j : Nat} {l : List Nat} {y : Owner}

/-! ## The epoch that the changes join (R38, R39) -/

theorem openEpoch_recordIn (n : Nat) (x y : Owner) (m : SlotMap) :
    (m.recordIn n x y).openEpoch = m.openEpoch.map (fun e => { e with changes := mergeChange e.changes n x y }) := rfl

theorem joins_openIfNone (s : State) : ∃ o, s.openIfNone.map.openEpoch = some o ∧ s.joins o := by
  unfold State.openIfNone State.joins
  cases h : s.map.openEpoch with
  | some p => exact ⟨p, h, rfl, rfl, rfl⟩
  | none => exact ⟨_, rfl, rfl, rfl, rfl⟩

theorem joins_recordChange {n : Nat} (h : s.planAt n ≠ y) :
    ∃ o, (s.recordChange n y).map.openEpoch = some o ∧ s.joins o := by
  obtain ⟨o, ho, hj⟩ := joins_openIfNone s
  rw [map_recordChange h, openEpoch_recordIn, ho]
  refine ⟨_, rfl, ?_⟩
  unfold State.joins at hj ⊢
  split at hj <;> exact hj

/-- Once an epoch is OPEN, whatever joins it joins it as it was opened. -/
theorem State.joins.trans {o p : Epoch} (h : s.joins o) (ho : t.map.openEpoch = some o) (h' : t.joins p) : s.joins p := by
  have hto : p.number = o.number ∧ p.sealFrame = o.sealFrame ∧ p.effective = o.effective := by
    unfold State.joins at h'
    rw [ho] at h'
    exact h'
  obtain ⟨hnumber, hseal, heffective⟩ := hto
  unfold State.joins at h ⊢
  rw [hnumber, hseal, heffective]
  exact h

theorem State.joins.of_open {o p : Epoch} (h : s.joins o) (hp : s.map.openEpoch = some p) :
    o.number = p.number ∧ o.effective = p.effective := by
  unfold State.joins at h
  rw [hp] at h
  exact ⟨h.1, h.2.2⟩

/-! ## Effective frames of the records that a change does not name (R43) -/

theorem openNames_recordChange (hf : s.map.follows) {n : Nat} (hx : s.planAt n ≠ some i) (hy : y ≠ some i) :
    (s.recordChange n y).map.openEpoch.any (fun e => e.names i) = s.map.openEpoch.any (fun e => e.names i) := by
  by_cases hne : s.planAt n = y
  · rw [recordChange_same hne]
  have hf' : (s.recordChange n y).map.follows := keptByAll_follows.toKept.recordChange n y hf
  rw [Bool.eq_iff_iff, any_names_iff hf'.2.1, any_names_iff hf.2.1]
  refine exists_congr (fun m => ?_)
  rw [changeAt_recordChange hne]
  by_cases hm : m = n
  · subst hm
    rw [if_pos rfl]
    cases hc : changeAt s.map.openEpoch m with
    | none => simp [mergedChange, Change.names_iff, hx, hy]
    | some c =>
      have hto : c.toOwner ≠ some i := ((hf.1 m).2.1 c hc).2.1 ▸ hx
      by_cases hfrom : c.fromOwner = y
      · simp [mergedChange, hfrom, Change.names_iff, hto, hy]
      · simp [mergedChange, hfrom, Change.names_iff, hto, hy]
  · rw [if_neg hm]

/-- The effective frame of one record, from the epochs that name it (R43). -/
theorem effectFor_of_names (ho : t.map.openEpoch.any (fun e => e.names i) = s.map.openEpoch.any (fun e => e.names i))
    (hj : t.map.openEpoch = s.map.openEpoch ∨ ∃ o, t.map.openEpoch = some o ∧ s.joins o)
    (hs : t.map.sealedEpoch = s.map.sealedEpoch) (ht : t.timer = s.timer) : t.effectFor [i] = s.effectFor [i] := by
  have hopen : (t.map.openEpoch.filter (fun e => [i].any (fun i => e.names i))).map (fun e => (e.effective, e.number))
      = (s.map.openEpoch.filter (fun e => [i].any (fun i => e.names i))).map (fun e => (e.effective, e.number)) := by
    rcases hj with hj | ⟨o, hto, hj⟩
    · rw [hj]
    · rw [hto] at ho ⊢
      cases hp : s.map.openEpoch with
      | none =>
        rw [hp] at ho
        have hn : o.names i = false := ho
        simp [Option.filter, hn]
      | some p =>
        rw [hp] at ho
        have hn : o.names i = p.names i := ho
        obtain ⟨hnumber, heffective⟩ := hj.of_open hp
        cases hname : p.names i <;> simp [Option.filter, hn, hname, hnumber, heffective]
  unfold State.effectFor
  rw [hs, ht]
  cases h : t.map.openEpoch.filter (fun e => [i].any (fun i => e.names i)) with
  | none =>
    cases h' : s.map.openEpoch.filter (fun e => [i].any (fun i => e.names i)) with
    | none => rfl
    | some p =>
      rw [h, h'] at hopen
      nomatch hopen
  | some o =>
    cases h' : s.map.openEpoch.filter (fun e => [i].any (fun i => e.names i)) with
    | none =>
      rw [h, h'] at hopen
      nomatch hopen
    | some p =>
      rw [h, h'] at hopen
      obtain ⟨he, hn⟩ := Prod.mk.inj (Option.some.inj hopen)
      exact congrArg₂ Effect.mk he (congrArg some hn)

theorem effectFor_recordChange (hf : s.map.follows) {n : Nat} (hx : s.planAt n ≠ some i) (hy : y ≠ some i) :
    (s.recordChange n y).effectFor [i] = s.effectFor [i] := by
  by_cases hne : s.planAt n = y
  · rw [recordChange_same hne]
  · exact effectFor_of_names (openNames_recordChange hf hx hy) (.inr (joins_recordChange hne)) (sealedEpoch_recordChange s n y)
      (timer_recordChange s n y)

/-! ## Several changes -/

/-- The change of each of these slots to owner `y`, recorded in turn. -/
def State.recordAll (l : List Nat) (y : Owner) (s : State) : State := l.foldl (fun s n => s.recordChange n y) s

theorem recordAll_cons (n : Nat) (l : List Nat) (y : Owner) (s : State) :
    s.recordAll (n :: l) y = (s.recordChange n y).recordAll l y := rfl

theorem planOnly_recordAll (l : List Nat) (y : Owner) (s : State) : PlanOnly s (s.recordAll l y) :=
  PlanOnly.foldl (fun s n => planOnly_recordChange s n y) l s

theorem follows_recordAll (hf : s.map.follows) : (s.recordAll l y).map.follows :=
  foldl_keeps (P := fun u => u.map.follows) (fun n _ hu => keptByAll_follows.toKept.recordChange n y hu) l hf

theorem planAt_recordAll (l : List Nat) (y : Owner) (s : State) (m : Nat) :
    (s.recordAll l y).planAt m = if m ∈ l then y else s.planAt m := by
  induction l generalizing s with
  | nil => rfl
  | cons n l ih =>
    rw [recordAll_cons, ih, planAt_recordChange]
    by_cases hm : m = n <;> by_cases hl : m ∈ l <;> simp [hm, hl]

theorem effectFor_recordAll (hf : s.map.follows) (hx : ∀ n ∈ l, s.planAt n ≠ some i) (hy : y ≠ some i) :
    (s.recordAll l y).effectFor [i] = s.effectFor [i] := by
  induction l generalizing s with
  | nil => rfl
  | cons n l ih =>
    have hhead := hx n List.mem_cons_self
    rw [recordAll_cons, ih (keptByAll_follows.toKept.recordChange n y hf) (fun m hm => ?_), effectFor_recordChange hf hhead hy]
    rw [planAt_recordChange]
    split
    · exact hy
    · exact hx m (List.mem_cons_of_mem _ hm)

theorem payload_recordAll (l : List Nat) (y : Owner) (s : State) : (s.recordAll l y).payload = s.payload :=
  payload_foldl_recordChange l y s

theorem maps_recordAll (l : List Nat) (y : Owner) (s : State) : (s.recordAll l y).map.active = s.map.active
    ∧ (s.recordAll l y).map.taint = s.map.taint ∧ (s.recordAll l y).map.sealedEpoch = s.map.sealedEpoch := by
  refine foldl_keeps (P := fun u => u.map.active = s.map.active ∧ u.map.taint = s.map.taint
    ∧ u.map.sealedEpoch = s.map.sealedEpoch) (fun n u ⟨ha, ht, hs⟩ => ?_) l ⟨rfl, rfl, rfl⟩
  exact ⟨(kept_active s.map.active).recordChange n y ha, (kept_taint s.map.taint).recordChange n y ht,
    (kept_sealed s.map.sealedEpoch).recordChange n y hs⟩

theorem effectFor_clearPlan_other (hf : s.map.follows) (hj : j ≠ i) : (s.clearPlan j).effectFor [i] = s.effectFor [i] :=
  effectFor_recordAll hf (fun _ hn k => hj (Option.some.inj ((mem_planSlots.1 hn).2.symm.trans k))) nofun

theorem follows_clearPlan (hf : s.map.follows) (j : Nat) : (s.clearPlan j).map.follows := follows_recordAll hf

/-! ## The counts of the record that gains and loses the slots (R19, R115) -/

/-- planCount of record `i` is the number of its PLAN slots (R19). -/
def State.planCounted (i : Nat) (s : State) : Prop := (s.grant i).planCount = (s.planSlots i).length

/-- Changes of slots that are FREE or record `i`'s own, to FREE or to record `i`. -/
structure State.ChangesOf (i : Nat) (s t : State) : Prop where
  other : ∀ j, j ≠ i → t.grant j = s.grant j
  self : t.grant i = { s.grant i with planCount := (t.planSlots i).length }
  planned : ∀ a, (s.grant i).owner = some a → (s.planSlots i).length ≤ (s.station a).planned → (t.station a).planned + (s.planSlots i).length
    = (s.station a).planned + (t.planSlots i).length
  owner : ∀ a, (s.grant i).owner = some a → t.station a = { s.station a with planned := (t.station a).planned }
  stations : ∀ a, (s.grant i).owner ≠ some a → t.station a = s.station a

theorem State.ChangesOf.planCounted (h : s.ChangesOf i t) : t.planCounted i := by
  unfold State.planCounted
  rw [h.self]

theorem State.ChangesOf.trans (h : s.ChangesOf i t) (k : t.ChangesOf i u) : s.ChangesOf i u := by
  have ho : (t.grant i).owner = (s.grant i).owner := by rw [h.self]
  refine ⟨fun j hj => (k.other j hj).trans (h.other j hj), ?_, fun a ha hle => ?_, fun a ha => ?_, fun a ha => ?_⟩
  · rw [k.self, h.self]
  · have hfirst := h.planned a ha hle
    have hsecond := k.planned a (ho.trans ha) (by omega)
    omega
  · rw [k.owner a (ho.trans ha), h.owner a ha]
  · rw [k.stations a (by rw [ho]; exact ha), h.stations a ha]

theorem changesOf_refl (h : s.planCounted i) : s.ChangesOf i s :=
  ⟨fun _ _ => rfl, by rw [← h], fun _ _ _ => rfl, fun _ _ => rfl, fun _ _ => rfl⟩

theorem station_recordChange_gains {n : Nat} (hx : s.planAt n = none) (a : Nat) : (s.recordChange n (some i)).station a =
    if (s.grant i).owner = some a then { s.station a with planned := (s.station a).planned + 1 } else s.station a := by
  have hrec : s.recordChange n (some i) = (s.openIfNone.updMap (SlotMap.recordIn n none (some i))).planCountUp (some i) := by
    unfold State.recordChange
    dsimp only
    rw [hx, if_neg (fun k => by nomatch k)]
    rfl
  have hgrant : (s.openIfNone.updMap (SlotMap.recordIn n none (some i))).grant i = s.grant i := State.grant_congr (by simp) i
  have hstation : (s.openIfNone.updMap (SlotMap.recordIn n none (some i))).station a = s.station a :=
    State.station_congr (by simp) a
  rw [hrec, station_planCountUp, hgrant, hstation]

theorem station_recordChange_loses {n : Nat} (hx : s.planAt n = some i) (a : Nat) : (s.recordChange n none).station a =
    if (s.grant i).owner = some a then { s.station a with planned := (s.station a).planned - 1 } else s.station a := by
  have hrec : s.recordChange n none = (s.openIfNone.updMap (SlotMap.recordIn n (some i) none)).planCountDown (some i) := by
    unfold State.recordChange
    dsimp only
    rw [hx, if_neg (fun k => by nomatch k)]
    rfl
  have hgrant : (s.openIfNone.updMap (SlotMap.recordIn n (some i) none)).grant i = s.grant i := State.grant_congr (by simp) i
  have hstation : (s.openIfNone.updMap (SlotMap.recordIn n (some i) none)).station a = s.station a :=
    State.station_congr (by simp) a
  rw [hrec, station_planCountDown, hgrant, hstation]

/-- A slot that was FREE comes to record `i`, or a slot of record `i` becomes FREE (R42). -/
theorem changesOf_recordChange {n : Nat} (hn : n ∈ s.payload) (hx : s.planAt n = none ∨ s.planAt n = some i)
    (hy : y = none ∨ y = some i) (h : s.planCounted i) : s.ChangesOf i (s.recordChange n y) := by
  by_cases hne : s.planAt n = y
  · rw [recordChange_same hne]
    exact changesOf_refl h
  have hlen := length_planSlots_recordChange hn y i
  have hcount : (s.grant i).planCount = (s.planSlots i).length := h
  have hgrant := fun j => grant_recordChange s n y j
  simp only [if_neg hne] at hgrant
  rcases hx with hx | hx
  · obtain rfl : y = some i := hy.resolve_left (fun k => hne (hx.trans k.symm))
    rw [hx, if_neg nofun, if_pos rfl] at hlen
    have hst := fun a => station_recordChange_gains (i := i) hx a
    refine ⟨fun j hj => ?_, ?_, fun a ha _ => ?_, fun a ha => ?_, fun a ha => ?_⟩
    · rw [hgrant, if_neg (fun k => hj (Option.some.inj k).symm), hx, if_neg nofun]
    · rw [hgrant, if_pos rfl]
      congr 1
      omega
    · rw [hst, if_pos ha]
      dsimp only
      omega
    · rw [hst, if_pos ha]
    · rw [hst, if_neg ha]
  · obtain rfl : y = none := hy.resolve_right (fun k => hne (hx.trans k.symm))
    rw [hx, if_pos rfl, if_neg nofun] at hlen
    have hst := fun a => station_recordChange_loses (i := i) hx a
    refine ⟨fun j hj => ?_, ?_, fun a ha hle => ?_, fun a ha => ?_, fun a ha => ?_⟩
    · rw [hgrant, if_neg nofun, hx, if_neg (fun k => hj (Option.some.inj k).symm)]
    · rw [hgrant, if_neg nofun, if_pos hx]
      congr 1
      omega
    · rw [hst, if_pos ha]
      dsimp only
      omega
    · rw [hst, if_pos ha]
    · rw [hst, if_neg ha]

theorem changesOf_recordAll (hl : ∀ n ∈ l, n ∈ s.payload ∧ (s.planAt n = none ∨ s.planAt n = some i))
    (hy : y = none ∨ y = some i) (h : s.planCounted i) : s.ChangesOf i (s.recordAll l y) := by
  induction l generalizing s with
  | nil => exact changesOf_refl h
  | cons n l ih =>
    obtain ⟨hn, hx⟩ := hl n List.mem_cons_self
    have hone := changesOf_recordChange hn hx hy h
    refine hone.trans (ih (fun m hm => ?_) hone.planCounted)
    obtain ⟨hpay, hplan⟩ := hl m (List.mem_cons_of_mem _ hm)
    rw [payload_recordChange, planAt_recordChange]
    refine ⟨hpay, ?_⟩
    split
    · exact hy
    · exact hplan

/-! ## The lists after the changes (R42) -/

theorem changeAt_recordAll (hd : l.Nodup) (hx : ∀ n ∈ l, s.planAt n = none) (m : Nat) :
    changeAt (s.recordAll l (some i)).map.openEpoch m =
      if m ∈ l then mergedChange (changeAt s.map.openEpoch m) none (some i) else changeAt s.map.openEpoch m := by
  induction l generalizing s with
  | nil => rfl
  | cons n l ih =>
    obtain ⟨hn, hd⟩ := List.nodup_cons.1 hd
    have hfree := hx n List.mem_cons_self
    have hne : s.planAt n ≠ some i := by rw [hfree]; nofun
    rw [recordAll_cons, ih hd (fun k hk => ?_), changeAt_recordChange hne, hfree]
    · by_cases hm : m = n
      · subst hm
        rw [if_neg hn, if_pos rfl, if_pos List.mem_cons_self]
      · rw [if_neg hm]
        simp [hm]
    · rw [planAt_recordChange, if_neg (fun he : k = n => hn (he ▸ hk))]
      exact hx k (List.mem_cons_of_mem _ hk)

theorem joins_recordAll (hl : l ≠ []) (hx : ∀ n ∈ l, s.planAt n ≠ y) :
    ∃ o, (s.recordAll l y).map.openEpoch = some o ∧ s.joins o := by
  obtain ⟨n, l, rfl⟩ := List.exists_cons_of_ne_nil hl
  rw [recordAll_cons]
  refine foldl_keeps (P := fun u => ∃ o, u.map.openEpoch = some o ∧ s.joins o) (fun m u ⟨o, ho, hj⟩ => ?_) l
    (joins_recordChange (hx n List.mem_cons_self))
  by_cases hne : u.planAt m = y
  · rw [recordChange_same hne]
    exact ⟨o, ho, hj⟩
  · obtain ⟨p, hp, hjp⟩ := joins_recordChange hne
    exact ⟨p, hp, hj.trans ho hjp⟩

end Sys2Proof.Machine
end

section
/-! The commit claim: the victims retired, the slots taken and the record placed (R20, R45, R47, R80). -/

namespace Sys2Proof.Machine

variable {s t u x : State} {i j a : Nat} {l : List Nat} {y : Owner} {taken : List Handle}

/-! ## The claim does not read the notices -/

theorem planCounts_notices (o : Owner) (s : State) (m : Table Mailbox) (k : Interrupts) :
    ({ s with mailboxes := m, ints := k } : State).planCountDown o = { s.planCountDown o with mailboxes := m, ints := k }
      ∧ ({ s with mailboxes := m, ints := k } : State).planCountUp o =
        { s.planCountUp o with mailboxes := m, ints := k } := by
  cases o with
  | none => exact ⟨rfl, rfl⟩
  | some i =>
    have hgrant : ({ s with mailboxes := m, ints := k } : State).grant i = s.grant i := rfl
    unfold State.planCountDown State.planCountUp
    dsimp only
    rw [hgrant]
    cases (s.grant i).owner <;> exact ⟨rfl, rfl⟩

theorem recordChange_notices (n : Nat) (y : Owner) (s : State) (m : Table Mailbox) (k : Interrupts) :
    ({ s with mailboxes := m, ints := k } : State).recordChange n y =
      { s.recordChange n y with mailboxes := m, ints := k } := by
  have hplan : ({ s with mailboxes := m, ints := k } : State).planAt n = s.planAt n := rfl
  have hopen : ({ s with mailboxes := m, ints := k } : State).openIfNone = { s.openIfNone with mailboxes := m, ints := k } := by
    unfold State.openIfNone
    dsimp only
    split <;> rfl
  unfold State.recordChange
  dsimp only
  rw [hplan, hopen]
  by_cases hne : s.planAt n = y
  · rw [if_pos hne, if_pos hne]
  · rw [if_neg hne, if_neg hne]
    generalize s.openIfNone = w
    have hrecord : ({ w with mailboxes := m, ints := k } : State).updMap (SlotMap.recordIn n (s.planAt n) y)
        = { w.updMap (SlotMap.recordIn n (s.planAt n) y) with mailboxes := m, ints := k } := rfl
    rw [hrecord, (planCounts_notices _ _ _ _).1, (planCounts_notices _ _ _ _).2]

theorem NoticeOnly.recordChange (h : NoticeOnly s t) (n : Nat) (y : Owner) :
    NoticeOnly (s.recordChange n y) (t.recordChange n y) := by
  have hsame := recordChange_notices n y s t.mailboxes t.ints
  unfold NoticeOnly at h
  rw [← h] at hsame
  rw [hsame]
  rfl

theorem NoticeOnly.recordAll (h : NoticeOnly s t) (l : List Nat) (y : Owner) :
    NoticeOnly (s.recordAll l y) (t.recordAll l y) := by
  induction l generalizing s t with
  | nil => exact h
  | cons n l ih => exact ih (h.recordChange n y)

theorem NoticeOnly.planSlots (h : NoticeOnly s t) (i : Nat) : t.planSlots i = s.planSlots i := by
  unfold State.planSlots
  rw [h.claimOnly.payload]
  simp only [h.planAt]

theorem NoticeOnly.clearPlan (h : NoticeOnly s t) (i : Nat) : NoticeOnly (s.clearPlan i) (t.clearPlan i) := by
  unfold State.clearPlan
  rw [h.planSlots i]
  exact h.recordAll (s.planSlots i) none

theorem NoticeOnly.clearPlans (h : NoticeOnly s t) (ids : List Nat) : NoticeOnly (s.clearPlans ids) (t.clearPlans ids) := by
  induction ids generalizing s t with
  | nil => exact h
  | cons i ids ih => exact ih (h.clearPlan i)

/-! ## The victims (R45, R47 step 1) -/

/-- A victim that stands is retired: its PLAN slots become FREE and its owner is told. -/
def State.preempt (v : Handle) (s : State) : State :=
  State.noticeRevoked (some .preempted) (s.grant v.index.toNat).owner v v.index.toNat (s.clearPlan v.index.toNat)

theorem retireVictims_eq (victims : List Handle) (s : State) :
    victims.foldl (fun s v => s.retireVictim v) s = (victims.filter s.victimStands).foldl (fun s v => s.preempt v) s := by
  induction victims generalizing s with
  | nil => rfl
  | cons v victims ih =>
    have hstands : (s.retireVictim v).victimStands = s.victimStands := funext (victimStands_retireVictim s v)
    rw [List.foldl_cons, ih, hstands, List.filter_cons]
    cases h : s.victimStands v with
    | true =>
      rw [if_pos rfl, List.foldl_cons, retireVictim_of_stands h]
      rfl
    | false => rw [if_neg Bool.false_ne_true, retireVictim_of_skipped h]

theorem noticeOnly_preempt (v : Handle) (s : State) : NoticeOnly (s.clearPlan v.index.toNat) (s.preempt v) :=
  noticeOnly_noticeRevoked _ _ _ _ _

theorem noticeOnly_preempts (taken : List Handle) (s : State) :
    NoticeOnly (s.clearPlans (taken.map (fun v => v.index.toNat))) (taken.foldl (fun s v => s.preempt v) s) := by
  induction taken generalizing s with
  | nil => exact .refl s
  | cons v taken ih => exact ((noticeOnly_preempt v s).clearPlans _).trans (ih (s.preempt v))

theorem follows_preempt (hf : s.map.follows) (v : Handle) : (s.preempt v).map.follows := by
  rw [(noticeOnly_preempt v s).map]
  exact follows_clearPlan hf _

theorem effectFor_preempts_other (hf : s.map.follows) (hj : ∀ v ∈ taken, v.index.toNat ≠ j) :
    (taken.foldl (fun s v => s.preempt v) s).effectFor [j] = s.effectFor [j] := by
  induction taken generalizing s with
  | nil => rfl
  | cons v taken ih =>
    have hn := noticeOnly_preempt v s
    rw [List.foldl_cons, ih (follows_preempt hf v) (fun w hw => hj w (List.mem_cons_of_mem _ hw)),
      effectFor_congr hn.map hn.claimOnly.timer, effectFor_clearPlan_other hf (hj v List.mem_cons_self)]

/-- Each owner is told of its own grants, in the order of the list, with the frames that hold at the end (R45, R80). -/
theorem queues_preempts (hf : s.map.follows) (hd : (taken.map (fun v => v.index.toNat)).Nodup) (a : Nat) :
    s.queues a ((taken.filter (fun v => (s.grant v.index.toNat).owner == some a)).map
      (fun v => .revoked v .preempted ((taken.foldl (fun s v => s.preempt v) s).effectFor [v.index.toNat]).frame))
      (taken.foldl (fun s v => s.preempt v) s) := by
  rw [← flatMap_singletons]
  induction taken generalizing s with
  | nil => exact queues_of_same rfl
  | cons v taken ih =>
    obtain ⟨hv, hd⟩ := List.nodup_cons.1 hd
    have hn := noticeOnly_preempt v s
    have hpresent : (s.station a).state.present = true → ((s.preempt v).station a).state.present = true := fun hp => by
      rw [hn.station]
      exact (claimedTo_clearPlan s _ a).present hp
    have howner : ∀ k, ((s.preempt v).grant k).owner = (s.grant k).owner := fun k => by rw [hn.grant, owner_clearPlan]
    have hrest := ih (follows_preempt hf v) hd
    simp only [howner] at hrest
    have hlater : ∀ w ∈ taken, w.index.toNat ≠ v.index.toNat := fun w hw he =>
      hv (List.mem_map.2 ⟨w, hw, he⟩)
    rw [List.foldl_cons, List.flatMap_cons]
    refine queues_trans hpresent ?_ hrest
    rw [effectFor_preempts_other (follows_preempt hf v) hlater, effectFor_congr hn.map hn.claimOnly.timer]
    have hone := queues_noticeRevoked (s.clearPlan v.index.toNat) .preempted (s.grant v.index.toNat).owner v v.index.toNat a
    simp only [beq_iff_eq]
    have hbox : (s.clearPlan v.index.toNat).mailbox a = s.mailbox a :=
      State.mailbox_congr (by rw [planOnly_clearPlan s v.index.toNat]) a
    exact queues_after (fun hp => ⟨(claimedTo_clearPlan s _ a).present hp, by rw [hbox]⟩) hone

/-- Two handles that pass and name one record are the same (R21, R22). -/
theorem handle_inj {v w : Handle} (hv : s.handlePasses v = true) (hw : s.handlePasses w = true)
    (h : v.index.toNat = w.index.toNat) : v = w := by
  rw [← handle_of_passes hv, ← handle_of_passes hw, h]

theorem nodup_indices {victims : List Handle} (hd : victims.Nodup) (s : State) :
    ((victims.filter s.victimStands).map (fun v => v.index.toNat)).Nodup := by
  refine (hd.filter _).map_on (fun v hv w hw h => ?_)
  have hpass : ∀ v ∈ victims.filter s.victimStands, s.handlePasses v = true := fun v hv => by
    have hstands := (List.mem_filter.1 hv).2
    unfold State.victimStands at hstands
    exact (Bool.and_eq_true_iff.1 hstands).1
  exact handle_inj (hpass v hv) (hpass w hw) h

/-! ## The slots taken and the record placed (R20, R47) -/

/-- Steps 2 to 5 of the claim, before its completion. -/
def State.placedIn (i : Nat) (t : List Nat) (load : Grant → Grant) (s : State) : State :=
  ((s.advanceCommit i).takeSlots i t).updGrant i (fun g => (load g).placed)

theorem commitClaim_eq (i : Nat) (t : List Nat) (victims : List Handle) (load : Grant → Grant) (s : State) :
    s.commitClaim i t victims load =
      (((victims.filter s.victimStands).foldl (fun s v => s.preempt v) s).placedIn i t load).complete
        (s.touchedBy i t victims) := by
  rw [← retireVictims_eq]
  rfl

theorem takeSlots_eq (i : Nat) (t : List Nat) (s : State) : s.takeSlots i t =
    (s.recordAll t (some i)).recordAll (((s.recordAll t (some i)).planSlots i).filter (fun n => !t.contains n)) none := rfl

/-- The slots can be taken for record `i`: each is a payload slot that is FREE or the record's own. -/
structure State.MayTake (i : Nat) (t : List Nat) (s : State) : Prop where
  slots : ∀ n ∈ t, n ∈ s.payload ∧ (s.planAt n = none ∨ s.planAt n = some i)
  nodup : t.Nodup
  counted : s.planCounted i

theorem changesOf_takeSlots (h : s.MayTake i l) : s.ChangesOf i (s.takeSlots i l) := by
  have hfirst := changesOf_recordAll (y := some i) h.slots (.inr rfl) h.counted
  rw [takeSlots_eq]
  refine hfirst.trans (changesOf_recordAll (fun n hn => ?_) (.inl rfl) hfirst.planCounted)
  obtain ⟨hpay, hplan⟩ := mem_planSlots.1 (List.mem_filter.1 hn).1
  exact ⟨hpay, .inr hplan⟩

theorem planAt_takeSlots (i : Nat) (l : List Nat) (s : State) (n : Nat) : (s.takeSlots i l).planAt n =
    if n ∈ l then some i else if n ∈ s.planSlots i then none else s.planAt n := by
  rw [takeSlots_eq, planAt_recordAll, planAt_recordAll]
  by_cases hn : n ∈ l
  · simp [hn]
  · have hmem : n ∈ ((s.recordAll l (some i)).planSlots i).filter (fun n => !l.contains n) ↔ n ∈ s.planSlots i := by
      rw [List.mem_filter, mem_planSlots, mem_planSlots, planAt_recordAll, if_neg hn, payload_recordAll]
      simp [hn]
    rw [if_neg hn, if_neg hn]
    exact if_congr hmem rfl rfl

theorem length_planSlots_takeSlots (h : s.MayTake i l) : ((s.takeSlots i l).planSlots i).length = l.length := by
  have hpay : (s.takeSlots i l).payload = s.payload := by
    rw [takeSlots_eq, payload_recordAll, payload_recordAll]
  have hnodup : ((s.takeSlots i l).planSlots i).Nodup := (nodup_payload (s.takeSlots i l).timer.code).filter _
  refine ((List.perm_ext_iff_of_nodup hnodup h.nodup).2 (fun n => ?_)).length_eq
  rw [mem_planSlots, hpay, planAt_takeSlots]
  by_cases hn : n ∈ l
  · simp [hn, (h.slots n hn).1]
  · rw [if_neg hn]
    simp only [hn, iff_false]
    rintro ⟨hpay, hk⟩
    split at hk
    · nomatch hk
    · exact absurd (mem_planSlots.2 ⟨hpay, hk⟩) ‹_›

theorem planOnly_takeSlots (i : Nat) (t : List Nat) (s : State) : PlanOnly s (s.takeSlots i t) := by
  rw [takeSlots_eq]
  exact (planOnly_recordAll _ _ s).trans (planOnly_recordAll _ _ _)

theorem maps_takeSlots (i : Nat) (t : List Nat) (s : State) : (s.takeSlots i t).map.active = s.map.active
    ∧ (s.takeSlots i t).map.taint = s.map.taint ∧ (s.takeSlots i t).map.sealedEpoch = s.map.sealedEpoch := by
  obtain ⟨ha, ht, hs⟩ := maps_recordAll t (some i) s
  rw [takeSlots_eq]
  obtain ⟨ha', ht', hs'⟩ := maps_recordAll (((s.recordAll t (some i)).planSlots i).filter (fun n => !t.contains n)) none
    (s.recordAll t (some i))
  exact ⟨ha'.trans ha, ht'.trans ht, hs'.trans hs⟩

theorem effectFor_takeSlots (hf : s.map.follows) (hx : ∀ n ∈ l, s.planAt n ≠ some j) (hj : j ≠ i) :
    (s.takeSlots i l).effectFor [j] = s.effectFor [j] := by
  have hij : (some i : Owner) ≠ some j := fun k => hj (Option.some.inj k).symm
  rw [takeSlots_eq, effectFor_recordAll (follows_recordAll hf) (i := j) (y := none) (fun n hn k => ?_) (fun k => by nomatch k),
    effectFor_recordAll hf hx hij]
  exact hij ((mem_planSlots.1 (List.mem_filter.1 hn).1).2.symm.trans k)

end Sys2Proof.Machine
end

section
/-! The commit claim completed (R20, R23, R44, R47, R80). -/

namespace Sys2Proof.Machine

variable {s t u x : State} {i j a : Nat} {l : List Nat} {taken : List Handle} {load : Grant → Grant}

/-! ## Before the completion -/

/-- What the claim on free slots leaves, before the record's state is derived. -/
structure State.PlacesSlots (i : Nat) (l : List Nat) (load : Grant → Grant) (s x : State) : Prop where
  self : x.grant i = (load { s.grant i with planCount := l.length, commitSeq := s.commitCounter + 1 }).placed
  others : ∀ j, j ≠ i → x.grant j = s.grant j
  plan : ∀ n, x.planAt n = if n ∈ l then some i else if n ∈ s.planSlots i then none else s.planAt n
  maps : x.map.active = s.map.active ∧ x.map.taint = s.map.taint ∧ x.map.sealedEpoch = s.map.sealedEpoch
  only : PlanOnly { s with commitCounter := s.commitCounter + 1 } x
  planned : ∀ a, (s.grant i).owner = some a → (s.planSlots i).length ≤ (s.station a).planned →
    (x.station a).planned + (s.planSlots i).length = (s.station a).planned + l.length
  owner : ∀ a, (s.grant i).owner = some a → x.station a = { s.station a with planned := (x.station a).planned }
  stations : ∀ a, (s.grant i).owner ≠ some a → x.station a = s.station a
  effect : s.map.follows → ∀ j, j ≠ i → (∀ n ∈ l, s.planAt n ≠ some j) → x.effectFor [j] = s.effectFor [j]

theorem grant_advanceCommit (i j : Nat) (s : State) : (s.advanceCommit i).grant j =
    if j = i then { s.grant i with commitSeq := s.commitCounter + 1 } else s.grant j :=
  State.grant_updGrant { s with commitCounter := s.commitCounter + 1 } i j
    (fun g => { g with commitSeq := s.commitCounter + 1 })

theorem placesSlots_placedIn (h : s.MayTake i l) (load : Grant → Grant) : s.PlacesSlots i l load (s.placedIn i l load) := by
  have hgrant := fun j => grant_advanceCommit i j s
  have hself := hgrant i
  rw [if_pos rfl] at hself
  have hmap : (s.advanceCommit i).map = s.map := rfl
  have htimer : (s.advanceCommit i).timer = s.timer := rfl
  have hstation : ∀ b, (s.advanceCommit i).station b = s.station b := fun _ => rfl
  have hslots : (s.advanceCommit i).planSlots i = s.planSlots i := rfl
  have hplan : ∀ n, (s.advanceCommit i).planAt n = s.planAt n := fun _ => rfl
  have honly : PlanOnly { s with commitCounter := s.commitCounter + 1 } (s.advanceCommit i) := rfl
  have htake : (s.advanceCommit i).MayTake i l := ⟨h.slots, h.nodup, by
    unfold State.planCounted
    rw [hself]
    exact h.counted⟩
  unfold State.placedIn
  generalize s.advanceCommit i = v at *
  have hchanges := changesOf_takeSlots htake
  have hlen := length_planSlots_takeSlots htake
  have hat := planAt_takeSlots i l v
  have hmaps := maps_takeSlots i l v
  have hclaim := planOnly_takeSlots i l v
  have heffect := fun hf j hx hj => effectFor_takeSlots (s := v) (l := l) (i := i) (j := j) hf hx hj
  generalize v.takeSlots i l = w at *
  have ho : (v.grant i).owner = (s.grant i).owner := by rw [hself]
  have hwself : w.grant i = { s.grant i with planCount := l.length, commitSeq := s.commitCounter + 1 } := by
    rw [hchanges.self, hlen, hself]
  refine ⟨?_, fun j hj => ?_, fun n => ?_, ?_, ?_, fun a ha hle => ?_, fun a ha => ?_, fun a ha => ?_, fun hf j hj hx => ?_⟩
  · rw [State.grant_updGrant, if_pos rfl, hwself]
  · rw [State.grant_updGrant, if_neg hj, hchanges.other j hj, hgrant, if_neg hj]
  · refine (hat n).trans ?_
    rw [hslots, hplan]
  · rw [hmap] at hmaps
    exact hmaps
  · have hlast : PlanOnly w (w.updGrant i (fun g => (load g).placed)) := rfl
    exact (honly.trans hclaim).trans hlast
  · have hp := hchanges.planned a (ho.trans ha) (by rw [hslots, hstation]; exact hle)
    rw [hslots, hstation, hlen] at hp
    exact hp
  · rw [← hstation a]
    exact hchanges.owner a (ho.trans ha)
  · rw [← hstation a]
    exact hchanges.stations a (by rw [ho]; exact ha)
  · have he := heffect (by rw [hmap]; exact hf) j (fun n hn => by rw [hplan]; exact hx n hn) hj
    rw [effectFor_congr hmap htimer] at he
    exact he

/-! ## The states derived (R23) -/

theorem derived_of_planned (hs : (s.grant i).state ≠ .placing) (hp : (s.grant i).planCount ≠ 0) :
    s.derived i = if (s.grant i).activeCount = 0 then .pending
      else if s.planSlots i = s.activeSlots i then .live else .shifting := by
  have hfree : s.freeable i = false := by simp [State.freeable, hp]
  unfold State.derived
  dsimp only
  rw [if_neg hs, hfree, if_neg Bool.false_ne_true, if_neg hp]

theorem grant_complete_planned {touched : List Nat} (hi : i < Config.grantCount) (hm : i ∈ touched)
    (hfree : (s.grant i).state ≠ .free) (hs : (s.grant i).state ≠ .placing) (hp : (s.grant i).planCount ≠ 0) :
    (s.complete touched).grant i = { s.grant i with
      state := if (s.grant i).activeCount = 0 then .pending
        else if s.planSlots i = s.activeSlots i then .live else .shifting } := by
  have hd := derived_of_planned hs hp
  have hne : s.derived i ≠ .free := by
    rw [hd]
    split
    · nofun
    · split <;> nofun
  rw [grant_complete, if_pos ⟨mem_touchedIds.2 ⟨hi, hm⟩, hfree⟩, if_neg hne, hd]

/-- A record with nothing in PLAN drains, or is freed (R23, R25). -/
theorem drainsOrFrees_complete {touched : List Nat} (hi : i < Config.grantCount) (hm : i ∈ touched)
    (hx : x.grant i = { s.grant i with planCount := 0 }) (hr : (s.grant i).state.retirable = true) :
    s.drainsOrFrees i (x.complete touched) := by
  obtain ⟨hfree, hplacing, -⟩ := retirable_ne hr
  have hstate : (x.grant i).state = (s.grant i).state := by rw [hx]
  have hgrant := grant_complete touched x i
  rw [if_pos ⟨mem_touchedIds.2 ⟨hi, hm⟩, by rw [hstate]; exact hfree⟩] at hgrant
  by_cases hd : x.derived i = .free
  · obtain ⟨-, -, hactive, -⟩ := derived_eq_free_iff.1 hd
    rw [hx] at hactive
    rw [if_pos hd, hx] at hgrant
    exact .inr ⟨hgrant, hactive⟩
  · have hdraining : x.derived i = .draining := by
      unfold State.derived at hd ⊢
      dsimp only at hd ⊢
      rw [hstate, if_neg hplacing] at hd ⊢
      have hf : x.freeable i ≠ true := fun k => hd (if_pos k)
      rw [if_neg hf, hx]
      exact if_pos rfl
    rw [if_neg hd, hdraining, hx] at hgrant
    refine .inl ?_
    rw [hgrant]
    exact ⟨rfl, rfl, rfl, rfl⟩

/-! ## The claim completed -/

/-- The claim is due: the record may be placed on these slots once these victims have lost theirs. -/
structure State.MayCommit (i : Nat) (l : List Nat) (taken : List Handle) (s : State) : Prop where
  lt : i < Config.grantCount
  state : (s.grant i).state ≠ .free ∧ (s.grant i).state ≠ .draining
  counted : s.planCounted i
  slots : ∀ n ∈ l, n ∈ s.payload
    ∧ (s.planAt n = none ∨ s.planAt n = some i ∨ ∃ v ∈ taken, s.planAt n = some v.index.toNat)
  nodup : l.Nodup
  nonempty : l ≠ []
  distinct : (taken.map (fun v => v.index.toNat)).Nodup
  victims : ∀ v ∈ taken, v.index.toNat ≠ i ∧ s.canRetire v.index.toNat

/-- What the claim leaves. -/
structure State.Commits (i : Nat) (l : List Nat) (taken : List Handle) (load : Grant → Grant) (s t : State) : Prop where
  plan : ∀ n, t.planAt n = if n ∈ l then some i
    else if (s.planSlots i).contains n || taken.any (fun v => (s.planSlots v.index.toNat).contains n) then none
    else s.planAt n
  maps : t.map.active = s.map.active ∧ t.map.taint = s.map.taint ∧ t.map.sealedEpoch = s.map.sealedEpoch
  self : t.grant i = { load { s.grant i with planCount := l.length, commitSeq := s.commitCounter + 1 } with
    state := (t.grant i).state }
  pending : (s.grant i).activeCount = 0 → (t.grant i).state = .pending
  live : (s.grant i).activeCount ≠ 0 →
    (t.grant i).state = if t.planSlots i = s.activeSlots i then .live else .shifting
  victims : ∀ v ∈ taken, s.drainsOrFrees v.index.toNat t
  others : ∀ j, j ≠ i → (∀ v ∈ taken, v.index.toNat ≠ j) → t.grant j = s.grant j
  queues : taken = [] ∨ s.map.follows → ∀ a, s.queues a ((taken.filter (fun v => (s.grant v.index.toNat).owner == some a)).map
    (fun v => .revoked v .preempted (t.effectFor [v.index.toNat]).frame)) t
  claim : ClaimOnly { s with commitCounter := s.commitCounter + 1 } t
  stations : ∀ a, (s.station a).ClaimedTo (t.station a)

theorem handles_any (taken : List Handle) (f : Nat → Bool) :
    (taken.map (fun v => v.index.toNat)).any f = taken.any (fun v => f v.index.toNat) := by
  rw [List.any_map]
  rfl

/-- The victims' slots are FREE once they are retired, so that the record may take them. -/
theorem State.MayCommit.mayTake (h : s.MayCommit i l taken) (hu : NoticeOnly (s.clearPlans (taken.map (fun v => v.index.toNat))) u) :
    u.MayTake i l ∧ u.planSlots i = s.planSlots i ∧ u.grant i = s.grant i := by
  have hpayload : u.payload = s.payload := by
    rw [hu.claimOnly.payload]
    exact (ClaimOnly.of_planOnly (planOnly_clearPlans _ s)).payload
  have hi : i ∉ taken.map (fun v => v.index.toNat) := fun k => by
    obtain ⟨v, hv, he⟩ := List.mem_map.1 k
    exact (h.victims v hv).1 he
  have hgrant : u.grant i = s.grant i := by rw [hu.grant, grant_clearPlans h.distinct, if_neg hi]
  have hplan : ∀ n, u.planAt n = if taken.any (fun v => (s.planSlots v.index.toNat).contains n) then none else s.planAt n :=
    fun n => by rw [hu.planAt, planAt_clearPlans, handles_any]
  have hslots : u.planSlots i = s.planSlots i := by
    unfold State.planSlots
    rw [hpayload]
    refine List.filter_congr (fun n _ => ?_)
    rw [hplan]
    split
    · rename_i hany
      obtain ⟨v, hv, hn⟩ := List.any_eq_true.1 hany
      have hown := (mem_planSlots.1 (List.contains_iff_mem.1 hn)).2
      have hne : s.planAt n ≠ some i := fun k => (h.victims v hv).1 (Option.some.inj (hown.symm.trans k))
      simp [hne]
    · rfl
  refine ⟨⟨fun n hn => ?_, h.nodup, ?_⟩, hslots, hgrant⟩
  · obtain ⟨hpay, hat⟩ := h.slots n hn
    refine ⟨by rw [hpayload]; exact hpay, ?_⟩
    rw [hplan]
    rcases hat with hat | hat | ⟨v, hv, hat⟩
    · exact .inl (by rw [hat]; exact ite_self none)
    · split
      · exact .inl rfl
      · exact .inr hat
    · have hany : taken.any (fun v => (s.planSlots v.index.toNat).contains n) = true :=
        List.any_eq_true.2 ⟨v, hv, List.contains_iff_mem.2 (mem_planSlots.2 ⟨hpay, hat⟩)⟩
      exact .inl (if_pos hany)
  · unfold State.planCounted
    rw [hgrant, hslots]
    exact h.counted

theorem mem_touchedBy {victims : List Handle} (h : s.MayCommit i l (victims.filter s.victimStands)) :
    j ∈ s.touchedBy i l victims ↔ j = i ∨ j ∈ (victims.filter s.victimStands).map (fun v => v.index.toNat) := by
  unfold State.touchedBy
  rw [List.cons_append, List.mem_cons, List.mem_append, List.mem_filterMap]
  refine ⟨fun k => ?_, fun k => k.imp_right .inl⟩
  rcases k with hj | hj | ⟨n, hn, hj⟩
  · exact .inl hj
  · exact .inr hj
  · rcases (h.slots n hn).2 with hat | hat | ⟨v, hv, hat⟩
    · exact absurd (hj.symm.trans hat) (fun k => by nomatch k)
    · exact .inl (Option.some.inj (hj.symm.trans hat))
    · exact .inr (List.mem_map.2 ⟨v, hv, Option.some.inj (hat.symm.trans hj)⟩)

theorem maps_clearPlans (ids : List Nat) (s : State) : (s.clearPlans ids).map.active = s.map.active
    ∧ (s.clearPlans ids).map.taint = s.map.taint ∧ (s.clearPlans ids).map.sealedEpoch = s.map.sealedEpoch := by
  refine foldl_keeps (P := fun u : State => u.map.active = s.map.active ∧ u.map.taint = s.map.taint
    ∧ u.map.sealedEpoch = s.map.sealedEpoch) (fun i u ⟨ha, ht, hs⟩ => ?_) ids ⟨rfl, rfl, rfl⟩
  obtain ⟨ha', ht', hs'⟩ := maps_recordAll (u.planSlots i) none u
  exact ⟨ha'.trans ha, ht'.trans ht, hs'.trans hs⟩

theorem activeSlots_congr (hp : t.payload = s.payload) (ha : t.map.active = s.map.active) (i : Nat) :
    t.activeSlots i = s.activeSlots i := by
  have hat : ∀ n, t.activeAt n = s.activeAt n := fun n => by
    unfold State.activeAt
    rw [ha]
  unfold State.activeSlots
  rw [hp]
  simp only [hat]

theorem planSlots_congr (hp : t.payload = s.payload) (hm : t.map = s.map) (i : Nat) : t.planSlots i = s.planSlots i := by
  have hat : ∀ n, t.planAt n = s.planAt n := fun n => by
    unfold State.planAt
    rw [hm]
  unfold State.planSlots
  rw [hp]
  simp only [hat]

theorem ClaimOnly.advanced (h : ClaimOnly s t) (n : BitVec 32) :
    ClaimOnly { s with commitCounter := n } { t with commitCounter := n } := by
  unfold ClaimOnly at *
  rw [h]

theorem State.PlacesSlots.claimedTo (h : s.PlacesSlots i l load x) (a : Nat) : (s.station a).ClaimedTo (x.station a) := by
  by_cases ha : (s.grant i).owner = some a
  · rw [h.owner a ha]
    exact Station.ClaimedTo.planned _ _
  · rw [h.stations a ha]
    exact .refl _

/-- A completion leaves the notices of a station that is present. -/
theorem queues_complete (touched : List Nat) (s : State) (a : Nat) : s.queues a [] (s.complete touched) := by
  intro hp _
  rcases mailbox_complete touched s a with h | ⟨-, hl, -⟩
  · rw [h, List.append_nil]
  · exact absurd hl (state_ne_leaving_of_present hp)

theorem placed_state {g : Grant} (hf : g.state ≠ .free) : g.placed.state ≠ .placing ∧ g.placed.state ≠ .free := by
  unfold Grant.placed
  dsimp only
  split
  · exact ⟨nofun, nofun⟩
  · exact ⟨‹_›, hf⟩

theorem placed_eq (g : Grant) : g.placed = { g with state := g.placed.state } := rfl

/-- The commit claim, with the victims that it retires (R47, R80). -/
theorem commits_commitClaim {victims : List Handle} (hkeep : Grant.KeepsPlace load)
    (h : s.MayCommit i l (victims.filter s.victimStands)) :
    s.Commits i l (victims.filter s.victimStands) load (s.commitClaim i l victims load) := by
  have htouched := fun j => mem_touchedBy (j := j) h
  rw [commitClaim_eq]
  generalize s.touchedBy i l victims = touched at htouched
  have hnotice := noticeOnly_preempts (victims.filter s.victimStands) s
  have hqueues := fun hf a => queues_preempts (s := s) hf h.distinct a
  have hnone : victims.filter s.victimStands = [] → (victims.filter s.victimStands).foldl (fun s v => s.preempt v) s = s :=
    fun hn => by rw [hn]; rfl
  have hfollows : s.map.follows → ((victims.filter s.victimStands).foldl (fun s v => s.preempt v) s).map.follows := fun hf =>
    foldl_keeps (P := fun u : State => u.map.follows) (fun v _ hu => follows_preempt hu v) _ hf
  generalize victims.filter s.victimStands = taken at *
  generalize taken.foldl (fun s v => s.preempt v) s = u at *
  obtain ⟨htake, hslots, hself⟩ := h.mayTake hnotice
  have hplaces := placesSlots_placedIn htake load
  generalize u.placedIn i l load = x at hplaces
  have hclears : ClaimOnly s u := (ClaimOnly.of_planOnly (planOnly_clearPlans _ s)).trans hnotice.claimOnly
  have hug : ∀ j, u.grant j = (s.clearPlans (taken.map (fun v => v.index.toNat))).grant j := hnotice.grant
  have hxi : x.grant i = (load { s.grant i with planCount := l.length, commitSeq := s.commitCounter + 1 }).placed := by
    rw [hplaces.self, hself, hclears.commitCounter]
  obtain ⟨hkstate, -, hkplan, hkactive, -⟩ :=
    hkeep { s.grant i with planCount := l.length, commitSeq := s.commitCounter + 1 }
  have hxstate := placed_state (g := load { s.grant i with planCount := l.length, commitSeq := s.commitCounter + 1 })
    (by rw [hkstate]; exact h.state.1)
  have hxplan : (x.grant i).planCount = l.length := by rw [hxi]; exact hkplan
  have hxactive : (x.grant i).activeCount = (s.grant i).activeCount := by rw [hxi]; exact hkactive
  have hnonempty : l.length ≠ 0 := fun k => h.nonempty (List.length_eq_zero_iff.1 k)
  have hcomplete := grant_complete_planned (s := x) (touched := touched) h.lt ((htouched i).2 (.inl rfl))
    (by rw [hxi]; exact hxstate.2) (by rw [hxi]; exact hxstate.1) (by rw [hxplan]; exact hnonempty)
  have hmap : (x.complete touched).map = x.map := map_complete _ _
  have hmaps : x.map.active = s.map.active ∧ x.map.taint = s.map.taint ∧ x.map.sealedEpoch = s.map.sealedEpoch := by
    obtain ⟨ha, ht, hs⟩ := hplaces.maps
    rw [ha, ht, hs, hnotice.map]
    exact maps_clearPlans _ s
  have honly : ClaimOnly { s with commitCounter := s.commitCounter + 1 } x := by
    have hu := hclears.advanced (s.commitCounter + 1)
    rw [← hclears.commitCounter] at hu ⊢
    exact hu.trans (.of_planOnly hplaces.only)
  have hpayload : x.payload = s.payload := honly.payload
  have hslotsx : (x.complete touched).planSlots i = x.planSlots i :=
    planSlots_congr (claimOnly_complete touched).payload hmap i
  have hactivex : x.activeSlots i = s.activeSlots i := activeSlots_congr hpayload hmaps.1 i
  have hother : ∀ {j}, j ≠ i → x.grant j = (s.clearPlans (taken.map (fun v => v.index.toNat))).grant j := fun hj => by
    rw [hplaces.others _ hj, hug]
  have hstation : ∀ b, (s.station b).ClaimedTo (u.station b) := fun b => by
    rw [hnotice.station]
    exact claimedTo_clearPlans _ s b
  refine ⟨fun n => ?_, by rw [hmap]; exact hmaps, ?_, fun ha => ?_, fun ha => ?_, fun v hv => ?_, fun j hj hnot => ?_,
    fun hf a => ?_, honly.trans (claimOnly_complete touched), fun b => ?_⟩
  · have hat : (x.complete touched).planAt n = x.planAt n := by
      unfold State.planAt
      rw [hmap]
    rw [hat, hplaces.plan, hslots, hnotice.planAt, planAt_clearPlans, handles_any]
    by_cases hn : n ∈ s.planSlots i
    · simp [hn]
    · simp [hn]
  · rw [hcomplete, hxi]
    rfl
  · rw [hcomplete, hxactive]
    exact if_pos ha
  · rw [hslotsx, hcomplete, hxactive, hactivex]
    exact if_neg ha
  · obtain ⟨hvi, hv240, hretirable, hcount⟩ := h.victims v hv
    refine drainsOrFrees_complete hv240 ((htouched _).2 (.inr (List.mem_map_of_mem hv))) ?_ hretirable
    rw [hother hvi, grant_clearPlans h.distinct, if_pos (List.mem_map_of_mem hv), hcount, Nat.sub_self]
  · have hnotmem : j ∉ taken.map (fun v => v.index.toNat) := fun k => by
      obtain ⟨v, hv, he⟩ := List.mem_map.1 k
      exact hnot v hv he
    rw [grant_complete_other (fun k => ((htouched j).1 k).elim hj hnotmem), hother hj, grant_clearPlans h.distinct,
      if_neg hnotmem]
  · have heffect : ∀ v ∈ taken, (x.complete touched).effectFor [v.index.toNat] = u.effectFor [v.index.toNat] := fun v hv => by
      rw [effectFor_congr hmap (claimOnly_complete touched).timer]
      have hf : s.map.follows := hf.resolve_left (List.ne_nil_of_mem hv)
      refine hplaces.effect (hfollows hf) _ (h.victims v hv).1 (fun n hn hk => ?_)
      rcases (htake.slots n hn).2 with hat | hat
      · exact absurd (hk.symm.trans hat) (fun k => by nomatch k)
      · exact (h.victims v hv).1 (Option.some.inj (hk.symm.trans hat))
    have htold : s.queues a ((taken.filter (fun v => (s.grant v.index.toNat).owner == some a)).map
        (fun v => .revoked v .preempted (u.effectFor [v.index.toNat]).frame)) u := by
      rcases hf with hf | hf
      · rw [hf, hnone hf]
        exact queues_of_same rfl
      · exact hqueues hf a
    have hboxes : x.mailbox a = u.mailbox a := State.mailbox_congr (by rw [hplaces.only]) a
    have hlater : u.queues a [] (x.complete touched) :=
      queues_after (fun hp => ⟨(hplaces.claimedTo a).present hp, by rw [hboxes]⟩) (queues_complete touched x a)
    have hall := queues_trans (fun hp => (hstation a).present hp) htold hlater
    rw [List.append_nil] at hall
    rw [List.map_congr_left (fun v hv => by rw [heffect v (List.mem_filter.1 hv).1])]
    exact hall
  · exact ((hstation b).trans (hplaces.claimedTo b)).trans (claimedTo_complete touched x b)

/-! ## A claim without victims -/

/-- What the claim leaves besides, where it has no victims: the stations and the queue of free records (R26, R115). -/
structure State.CommitsAlone (i : Nat) (l : List Nat) (s t : State) : Prop where
  freeQueue : t.freeQueue = s.freeQueue
  planned : ∀ a, (s.grant i).owner = some a → (s.planSlots i).length ≤ (s.station a).planned →
    (t.station a).planned + (s.planSlots i).length = (s.station a).planned + l.length
  owner : ∀ a, (s.grant i).owner = some a → t.station a = { s.station a with planned := (t.station a).planned }
  stations : ∀ a, (s.grant i).owner ≠ some a → t.station a = s.station a

theorem commitClaim_alone (i : Nat) (l : List Nat) (load : Grant → Grant) (s : State) :
    s.commitClaim i l [] load = (s.placedIn i l load).complete (s.touchedBy i l []) := rfl

theorem station_complete_of_not_freed {touched : List Nat} (h : ∀ j ∈ touched, j < Config.grantCount → s.derived j ≠ .free)
    (a : Nat) : (s.complete touched).station a = s.station a ∧ (s.complete touched).freeQueue = s.freeQueue := by
  have hnone : (touchedIds touched).filter s.freesDue = [] := List.filter_eq_nil_iff.2 (fun j hj hd => by
    obtain ⟨hlt, hm⟩ := mem_touchedIds.1 hj
    exact h j hm hlt (freesDue_iff.1 hd).2)
  have hzero : s.freedOf a (touchedIds touched) = 0 := by
    unfold State.freedOf
    rw [hnone]
    rfl
  rw [station_complete, freeQueue_complete, hnone, hzero, List.append_nil]
  exact ⟨rfl, rfl⟩

theorem commitsAlone_commitClaim (hkeep : Grant.KeepsPlace load) (h : s.MayCommit i l []) :
    s.CommitsAlone i l (s.commitClaim i l [] load) := by
  have htouched := fun j => mem_touchedBy (j := j) (victims := []) h
  have hplaces := placesSlots_placedIn (h.mayTake (.refl s)).1 load
  rw [commitClaim_alone]
  generalize s.placedIn i l load = x at hplaces
  obtain ⟨hkstate, -, hkplan, -, -⟩ := hkeep { s.grant i with planCount := l.length, commitSeq := s.commitCounter + 1 }
  have hxstate := placed_state (g := load { s.grant i with planCount := l.length, commitSeq := s.commitCounter + 1 })
    (by rw [hkstate]; exact h.state.1)
  have hkept : ∀ j ∈ s.touchedBy i l [], j < Config.grantCount → x.derived j ≠ .free := fun j hj _ hd => by
    obtain rfl : j = i := ((htouched j).1 hj).resolve_right nofun
    obtain ⟨-, hcount, -⟩ := derived_eq_free_iff.1 hd
    rw [hplaces.self] at hcount
    exact h.nonempty (List.length_eq_zero_iff.1 (hkplan.symm.trans hcount))
  have hsame := station_complete_of_not_freed hkept
  have hqueue : x.freeQueue = s.freeQueue := by rw [hplaces.only]
  refine ⟨((hsame 0).2).trans hqueue, fun a ha hle => ?_, fun a ha => ?_, fun a ha => ?_⟩
  · rw [(hsame a).1]
    exact hplaces.planned a ha hle
  · rw [(hsame a).1]
    exact hplaces.owner a ha
  · rw [(hsame a).1]
    exact hplaces.stations a ha

theorem takeSlots_of_unplaced (h : ∀ n, s.planAt n ≠ some i) : s.takeSlots i l = s.recordAll l (some i) := by
  have hnone : ((s.recordAll l (some i)).planSlots i).filter (fun n => !l.contains n) = [] :=
    List.filter_eq_nil_iff.2 (fun n hn hout => by
      have hat := (mem_planSlots.1 hn).2
      rw [planAt_recordAll] at hat
      split at hat
      · simp [‹n ∈ l›] at hout
      · exact h n hat)
  rw [takeSlots_eq, hnone]
  rfl

/-- The OPEN epoch after a claim for a record that is in no map (R38, R39, R42). -/
theorem openEpoch_commitClaim (h : ∀ n, s.planAt n ≠ some i) (hd : l.Nodup) (hl : l ≠ [])
    (hx : ∀ n ∈ l, s.planAt n = none) (load : Grant → Grant) :
    ∃ o, (s.commitClaim i l [] load).map.openEpoch = some o ∧ s.joins o ∧ ∀ n, changeAt (some o) n =
      if n ∈ l then mergedChange (changeAt s.map.openEpoch n) none (some i) else changeAt s.map.openEpoch n := by
  have hmap : (s.commitClaim i l [] load).map = ((s.advanceCommit i).recordAll l (some i)).map := by
    rw [commitClaim_alone, map_complete, ← takeSlots_of_unplaced (s := s.advanceCommit i) h]
    rfl
  obtain ⟨o, ho, hj⟩ := joins_recordAll (s := s.advanceCommit i) (y := some i) hl (fun n _ => h n)
  refine ⟨o, by rw [hmap, ho], hj, fun n => ?_⟩
  rw [← ho]
  exact changeAt_recordAll (s := s.advanceCommit i) hd hx n

end Sys2Proof.Machine
end

section
/-! The commit point of a placement that has found its slots (O38, O39, O40; R20, R47, R76, R78, R80, R81). -/

namespace Sys2Proof.Machine

variable {s t u : State} {i a : Nat} {l : List Nat} {taken : List Handle} {load : Grant → Grant} {c : Context}

/-! ## The end of the placement (R80, R81) -/

/-- The placement ended: station `a` is handed the notice, the engine is IDLE, and asks, port and flags may change. -/
structure State.Ends (a : Nat) (n : Notice) (u t : State) : Prop where
  records : SameRecords u t
  stations : t.stations = u.stations
  mailboxes : t.mailboxes = (u.handNotice a n).mailboxes
  engine : t.engine = { u.engine with context := none }

theorem State.Ends.queues {n : Notice} (h : u.Ends a n t) (b : Nat) : u.queues b (if b = a then [n] else []) t := by
  intro hp hlen
  have hq := queues_handNotice u a b n hp hlen
  rw [State.mailbox_congr h.mailboxes]
  exact hq

theorem ends_handNotice (a : Nat) (n : Notice) (u : State) : u.Ends a n (u.handNotice a n).endPlacement := by
  have hn := noticeOnly_handNotice a n u
  have hengine : (u.handNotice a n).engine = u.engine := hn.claimOnly.engine
  unfold NoticeOnly at hn
  refine ⟨⟨?_, ?_, ?_, ?_, ?_⟩, ?_, rfl, ?_⟩
  · rw [hn]; rfl
  · rw [hn]; rfl
  · rw [hn]; rfl
  · rw [hn]; rfl
  · rw [hn]; rfl
  · rw [hn]; rfl
  · rw [← hengine]
    rfl

/-- A LOCAL placement ends with its result, where the port has a request in progress (R166). -/
theorem ends_answerLocal {n : Notice} {r : Answer} (hq : u.port.requests = []) :
    u.Ends a n ((u.handNotice a n).endPlacement.answerLocal r)
      ∧ ((u.handNotice a n).endPlacement.answerLocal r).asks = u.asks
      ∧ ∀ e, u.port.inProgress = some e → ((u.handNotice a n).endPlacement.answerLocal r).port =
        { u.port with inProgress := none, results := u.port.results ++ [resultEntry e 0 r] } := by
  obtain ⟨⟨hgrants, hmap, hfree, htimer, hcounter⟩, hstations, hboxes, hengine⟩ := ends_handNotice a n u
  have hport : (u.handNotice a n).endPlacement.port = u.port := (noticeOnly_handNotice a n u).claimOnly.port
  have hasks : (u.handNotice a n).endPlacement.asks = u.asks := (noticeOnly_handNotice a n u).claimOnly.asks
  generalize (u.handNotice a n).endPlacement = v at *
  cases hp : u.port.inProgress with
  | none =>
    have hid : v.answerLocal r = v := by
      unfold State.answerLocal
      rw [hport, hp]
    rw [hid]
    exact ⟨⟨⟨hgrants, hmap, hfree, htimer, hcounter⟩, hstations, hboxes, hengine⟩, hasks, nofun⟩
  | some e =>
    rw [answerLocal_of_no_requests (e := e) r (by rw [hport, hp]) (by rw [hport, hq])]
    refine ⟨⟨⟨hgrants, hmap, hfree, htimer, hcounter⟩, hstations, hboxes, hengine⟩, hasks, fun e' he => ?_⟩
    obtain rfl := Option.some.inj he
    rw [← hport]

/-- An ask's placement ends with its notice and its sequence (R81, R121). -/
theorem ends_answerAsk {n : Notice} (seq : BitVec 4) :
    let t := ((u.setAsk a .none).answerAsk a seq n).endPlacement
    u.Ends a n t ∧ t.port = u.port ∧ t.ask a = { status := .none, lastAnswered := some seq }
      ∧ ∀ b, b ≠ a → t.ask b = u.ask b := by
  have hshape : ((u.setAsk a .none).answerAsk a seq n).endPlacement =
      { (u.handNotice a n).endPlacement with asks := ((u.setAsk a .none).answerAsk a seq n).asks } := by
    unfold State.answerAsk State.setAsk
    rw [handNotice_updAsk]
    rfl
  have hport : (u.handNotice a n).endPlacement.port = u.port := (noticeOnly_handNotice a n u).claimOnly.port
  have hask : ∀ b, ((u.setAsk a .none).answerAsk a seq n).ask b =
      if b = a then { status := .none, lastAnswered := some seq } else u.ask b := fun b => by
    rw [ask_answerAsk, ask_setAsk, if_pos rfl, ask_setAsk]
    split <;> rfl
  obtain ⟨⟨hgrants, hmap, hfree, htimer, hcounter⟩, hstations, hboxes, hengine⟩ := ends_handNotice a n u
  intro t
  have ht : t = { (u.handNotice a n).endPlacement with asks := ((u.setAsk a .none).answerAsk a seq n).asks } := hshape
  refine ⟨?_, by rw [ht]; exact hport, (hask a).trans (if_pos rfl), fun b hb => (hask b).trans (if_neg hb)⟩
  rw [ht]
  exact ⟨⟨hgrants, hmap, hfree, htimer, hcounter⟩, hstations, hboxes, hengine⟩

/-! ## The claim and its notice together -/

/-- The owner is told of its own victims and then of the placement (R45, R80, R81). -/
theorem State.Commits.queues_ends {n : Notice} (h : s.Commits i l taken load u) (he : u.Ends a n t)
    (hf : taken = [] ∨ s.map.follows) (b : Nat) :
    s.queues b ((taken.filter (fun v => (s.grant v.index.toNat).owner == some b)).map
      (fun v => .revoked v .preempted (t.effectFor [v.index.toNat]).frame) ++ if b = a then [n] else []) t := by
  have hsame : ∀ k, t.effectFor k = u.effectFor k := he.records.effectFor
  simp only [hsame]
  exact queues_trans (h.stations b).present (h.queues hf b) (he.queues b)

theorem keepsPlace_withLease (r : BitVec 16) : Grant.KeepsPlace (Grant.withLease r) := fun _ => ⟨rfl, rfl, rfl, rfl, rfl⟩

theorem keepsPlace_requested (n : Nat) : Grant.KeepsPlace (fun g => { g with requested := n }) :=
  fun _ => ⟨rfl, rfl, rfl, rfl, rfl⟩

theorem victimStands_iff {v : Handle} :
    s.victimStands v = true ↔ s.handlePasses v = true ∧ (s.grant v.index.toNat).state ≠ .draining := by
  unfold State.victimStands
  simp

/-- A placement of a new grant may commit on slots that are FREE or its victims' (R47, R80). -/
theorem mayCommit_new {victims : List Handle} (hp : s.placesNew c i) (hd : victims.Nodup)
    (hv : ∀ v ∈ victims.filter s.victimStands, s.canRetire v.index.toNat) (hl : l ≠ []) (hnodup : l.Nodup)
    (hslots : ∀ n ∈ l, n ∈ s.payload
      ∧ (s.planAt n = none ∨ ∃ v ∈ victims.filter s.victimStands, s.planAt n = some v.index.toNat)) :
    s.MayCommit i l (victims.filter s.victimStands) := by
  obtain ⟨hlt, hstate, -, hcount, -, hnone⟩ := hp
  have hunplaced : s.planSlots i = [] := List.filter_eq_nil_iff.2 (fun n _ => by simpa using hnone n)
  refine ⟨hlt, ⟨by rw [hstate]; nofun, by rw [hstate]; nofun⟩, ?_, fun n hn => ?_, hnodup, hl, nodup_indices hd s,
    fun v hm => ⟨fun he => ?_, hv v hm⟩⟩
  · unfold State.planCounted
    rw [hcount, hunplaced]
    rfl
  · obtain ⟨hpay, hat⟩ := hslots n hn
    exact ⟨hpay, hat.imp_right .inr⟩
  · obtain ⟨-, hr, -⟩ := hv v hm
    rw [he, hstate] at hr
    nomatch hr

/-- A RESIZE may commit on slots that are FREE, its own or its victims' (R47, R80). -/
theorem mayCommit_resize {h : Handle} {victims : List Handle} (hp : s.handlePasses h = true)
    (hdr : (s.grant h.index.toNat).state ≠ .draining) (hcount : (s.grant h.index.toNat).planCount = (s.planSlots h.index.toNat).length)
    (hd : victims.Nodup) (hv : ∀ v ∈ victims.filter s.victimStands, v.index.toNat ≠ h.index.toNat ∧ s.canRetire v.index.toNat)
    (hl : l ≠ []) (hnodup : l.Nodup)
    (hslots : ∀ n ∈ l, n ∈ s.payload ∧ (s.planAt n = none ∨ s.planAt n = some h.index.toNat
      ∨ ∃ v ∈ victims.filter s.victimStands, s.planAt n = some v.index.toNat)) :
    s.MayCommit h.index.toNat l (victims.filter s.victimStands) := by
  obtain ⟨hlt, hfree, -, -⟩ := State.handlePasses_iff.1 hp
  exact ⟨hlt, ⟨hfree, hdr⟩, hcount, hslots, hnodup, hl, nodup_indices hd s, hv⟩

/-! ## The commit of each kind -/

/-- What the claim and the notice leave of the record, and of the handle and stream in the answers. -/
theorem State.Commits.answers (h : s.Commits i l taken load u) (hk : Grant.KeepsPlace load)
    (hs : ∀ g, (load g).stream = g.stream) : u.handle i = s.handle i ∧ (u.grant i).stream = (s.grant i).stream
      ∧ (u.grant i).owner = (s.grant i).owner ∧ (u.grant i).generation = (s.grant i).generation := by
  obtain ⟨-, howner, -, -, hgen⟩ := hk { s.grant i with planCount := l.length, commitSeq := s.commitCounter + 1 }
  have hg : (u.grant i).generation = (s.grant i).generation := by
    rw [h.self]
    exact hgen
  refine ⟨?_, ?_, ?_, hg⟩
  · unfold State.handle
    rw [hg]
  · rw [h.self]
    exact hs _
  · rw [h.self]
    exact howner

theorem exec_commit {victims : List Handle} (hready : s.ready) (hc : s.engine.context = some c)
    (hm : (s.station c.station).state = .member ∨ (s.station c.station).state = .quiet)
    (hr : c.kind.retiredIn s = false) (ho : c.outcome = .chosen l victims) :
    exec .commitPoint s = .next (s.commit c l victims) := by
  rw [exec_commitPoint hready.1 hready.2, commitPoint_of_context hc, endWith_chosen hm hr ho]

theorem NoticeOnly.handle (h : NoticeOnly s t) (i : Nat) : t.handle i = s.handle i := by
  unfold State.handle
  rw [h.grant]

theorem commit_create {victims : List Handle} {lease : BitVec 16} (hkind : c.kind = .create i lease)
    (ho : (s.grant i).owner = some c.station)
    (h : s.Commits i l taken (Grant.withLease lease) (s.commitClaim i l victims (Grant.withLease lease))) :
    s.commit c l victims = ((s.commitClaim i l victims (Grant.withLease lease)).handNotice c.station
      (.granted (s.handle i) (s.grant i).stream 0
        ((s.commitClaim i l victims (Grant.withLease lease)).effectFor [i]).frame)).endPlacement.answerLocal
      (.placed (s.handle i) ((s.commitClaim i l victims (Grant.withLease lease)).effectFor [i])) := by
  obtain ⟨hhandle, hstream, howner, -⟩ := h.answers (keepsPlace_withLease lease) (fun _ => rfl)
  unfold State.commit
  rw [hkind]
  dsimp only
  generalize s.commitClaim i l victims (Grant.withLease lease) = u at *
  have hnotice := noticeOnly_handNotice c.station (.granted (s.handle i) (s.grant i).stream 0 (u.effectFor [i]).frame) u
  have hsame : (u.handNotice c.station (.granted (s.handle i) (s.grant i).stream 0 (u.effectFor [i]).frame)).handle i
      = s.handle i := (hnotice.handle i).trans hhandle
  rw [noticeOwner_eq (howner.trans ho), hhandle, hstream, hsame]

theorem commit_resize {victims : List Handle} {h : Handle} (hkind : c.kind = .resize h) (hp : s.handlePasses h = true)
    (ho : (s.grant h.index.toNat).owner = some c.station)
    (hu : s.Commits h.index.toNat l taken (fun g => { g with requested := c.newCount })
      (s.commitClaim h.index.toNat l victims (fun g => { g with requested := c.newCount }))) :
    s.commit c l victims = ((s.commitClaim h.index.toNat l victims (fun g => { g with requested := c.newCount })).handNotice
      c.station (.shifted h c.newCount ((s.commitClaim h.index.toNat l victims
        (fun g => { g with requested := c.newCount })).effectFor [h.index.toNat]).frame)).endPlacement.answerLocal
      (.placed h ((s.commitClaim h.index.toNat l victims
        (fun g => { g with requested := c.newCount })).effectFor [h.index.toNat])) := by
  obtain ⟨hhandle, -, howner, -⟩ := hu.answers (keepsPlace_requested c.newCount) (fun _ => rfl)
  unfold State.commit
  rw [hkind]
  dsimp only
  generalize s.commitClaim h.index.toNat l victims (fun g => { g with requested := c.newCount }) = u at *
  rw [handle_of_passes hp] at hhandle
  have hnotice := noticeOnly_handNotice c.station (.shifted h c.newCount (u.effectFor [h.index.toNat]).frame) u
  have hsame : (u.handNotice c.station (.shifted h c.newCount (u.effectFor [h.index.toNat]).frame)).handle h.index.toNat = h :=
    (hnotice.handle _).trans hhandle
  rw [noticeOwner_eq (howner.trans ho), hhandle, hsame]

theorem commit_ask {victims : List Handle} {seq code : BitVec 4} (hkind : c.kind = .ask i seq code)
    (h : s.Commits i l taken (Grant.withLease (s.cfg.leaseFor code))
      (s.commitClaim i l victims (Grant.withLease (s.cfg.leaseFor code)))) :
    s.commit c l victims = (((s.commitClaim i l victims (Grant.withLease (s.cfg.leaseFor code))).setAsk c.station .none).answerAsk
      c.station seq (.granted (s.handle i) (s.grant i).stream seq
        ((s.commitClaim i l victims (Grant.withLease (s.cfg.leaseFor code))).effectFor [i]).frame)).endPlacement := by
  obtain ⟨hhandle, hstream, -⟩ := h.answers (keepsPlace_withLease _) (fun _ => rfl)
  unfold State.commit
  rw [hkind]
  dsimp only
  rw [hhandle, hstream]

/-- A commit of a new grant without victims leaves the state committed (R47, R80). -/
theorem committedTo_of_ends {r : BitVec 16} {n : Notice} (hp : s.placesNew c i)
    (h : s.Commits i l [] (Grant.withLease r) u) (h' : s.CommitsAlone i l u)
    (hopen : ∃ o, u.map.openEpoch = some o ∧ s.joins o ∧ ∀ n, changeAt (some o) n =
      if n ∈ l then mergedChange (changeAt s.map.openEpoch n) none (some i) else changeAt s.map.openEpoch n)
    (he : u.Ends a n t) : s.committedTo c i r l t := by
  obtain ⟨-, -, howner, -, hactive, hnone⟩ := hp
  have hunplaced : s.planSlots i = [] := List.filter_eq_nil_iff.2 (fun n _ => by simpa using hnone n)
  have hmap := he.records.map
  have hstation : ∀ b, t.station b = u.station b := State.station_congr he.stations
  have hpending := h.pending hactive
  refine ⟨fun n => ?_, ?_, ?_, ?_, ?_, ?_, fun j hj => ?_, ?_, ?_, fun b hb => ?_, ?_, ?_⟩
  · rw [he.records.planAt, h.plan, hunplaced]
    simp
  · rw [hmap, h.maps.1]
  · rw [hmap, h.maps.2.1]
  · rw [hmap, h.maps.2.2]
  · rw [he.records.commitCounter, h.claim.commitCounter]
  · rw [he.records.grant, h.self, hpending]
    rfl
  · rw [he.records.grant, h.others j hj nofun]
  · rw [he.records.freeQueue, h'.freeQueue]
  · have hplanned := h'.planned _ howner (by rw [hunplaced]; exact Nat.zero_le _)
    rw [hunplaced] at hplanned
    have hcount : (u.station c.station).planned = (s.station c.station).planned + l.length := hplanned
    rw [hstation, h'.owner _ howner, hcount]
  · rw [hstation, h'.stations b (fun k => hb (Option.some.inj (k.symm.trans howner)))]
  · rw [hmap]
    exact hopen
  · rw [he.engine, h.claim.engine]

end Sys2Proof.Machine

namespace Sys2Proof.Proofs
open Sys2Proof.Machine

/-- Settles O38: the claim without victims (`committedTo_of_ends`), answered to the port or to the ask. -/
theorem commitPlacesTheGrant : Obligations.CommitPlacesTheGrant := by
  intro s c i slots hready hcontext houtcome hmember hnew hne hnodup hslots
  have hmay : s.MayCommit i slots [] := mayCommit_new (victims := []) hnew List.nodup_nil nofun hne hnodup
    (fun n hn => ⟨(hslots n hn).1, .inl (hslots n hn).2⟩)
  have hopen := openEpoch_commitClaim (s := s) (i := i) hnew.2.2.2.2.2 hnodup hne (fun n hn => (hslots n hn).2)
  have hcommits : ∀ r, s.Commits i slots [] (Grant.withLease r) (s.commitClaim i slots [] (Grant.withLease r)) := fun r =>
    commits_commitClaim (victims := []) (keepsPlace_withLease r) hmay
  have halone : ∀ r, s.CommitsAlone i slots (s.commitClaim i slots [] (Grant.withLease r)) := fun r =>
    commitsAlone_commitClaim (keepsPlace_withLease r) hmay
  have hretired : ∀ k, c.kind = k → (∀ h, k ≠ .resize h) → c.kind.retiredIn s = false := fun k hk hno => by
    rw [hk]
    cases k with
    | create i lease => rfl
    | resize h => exact absurd rfl (hno h)
    | ask i seq code => rfl
  have hexec := fun k hk hno => exec_commit hready hcontext hmember (hretired k hk hno) houtcome
  refine ⟨fun e lease hkind hp hq => ?_, fun seq code r hkind hzero hlease => ?_⟩
  · have hu := hcommits lease
    have hu' := halone lease
    have ho := hopen (Grant.withLease lease)
    have hstep := hexec _ hkind nofun
    rw [commit_create hkind hnew.2.2.1 hu] at hstep
    generalize s.commitClaim i slots [] (Grant.withLease lease) = u at *
    obtain ⟨he, hasks, hport⟩ := ends_answerLocal (u := u) (a := c.station)
      (n := .granted (s.handle i) (s.grant i).stream 0 (u.effectFor [i]).frame)
      (r := .placed (s.handle i) (u.effectFor [i])) (by rw [hu.claim.port]; exact hq)
    have hpost := hport e (by rw [hu.claim.port]; exact hp)
    rw [hu.claim.port] at hpost
    generalize State.answerLocal (.placed (s.handle i) (u.effectFor [i])) _ = t at *
    have heffect := he.records.effectFor [i]
    refine ⟨t, _, hstep, committedTo_of_ends hnew hu hu' ho he, hpost, ?_, hasks.trans hu.claim.asks, ?_⟩
    · rw [heffect]
      exact places_resultEntry e (s.handle i) (u.effectFor [i])
    · have htold := hu.queues_ends he (.inl rfl) c.station
      rw [if_pos rfl] at htold
      rw [heffect]
      exact htold
  · have hload : s.cfg.leaseFor code = r := by
      by_cases hcode : code = 0
      · rw [hcode, hzero hcode]
        rfl
      · exact leaseFor_of_ne_zero hcode hlease
    have hu := hcommits (s.cfg.leaseFor code)
    have hu' := halone (s.cfg.leaseFor code)
    have ho := hopen (Grant.withLease (s.cfg.leaseFor code))
    have hstep := hexec _ hkind nofun
    rw [commit_ask hkind hu] at hstep
    rw [hload] at *
    generalize s.commitClaim i slots [] (Grant.withLease r) = u at *
    obtain ⟨he, hport, hask, hasks⟩ := ends_answerAsk (u := u) (a := c.station)
      (n := .granted (s.handle i) (s.grant i).stream seq (u.effectFor [i]).frame) seq
    generalize State.endPlacement _ = t at *
    have heffect := he.records.effectFor [i]
    refine ⟨t, hstep, committedTo_of_ends hnew hu hu' ho he, hport.trans hu.claim.port, hask,
      fun b hb => (hasks b hb).trans (hu.claim.ask b), ?_⟩
    have htold := hu.queues_ends he (.inl rfl) c.station
    rw [if_pos rfl] at htold
    rw [heffect]
    exact htold

end Sys2Proof.Proofs
end

section
/-! The commits that retire victims, and the commits of a RESIZE (O39, O40; R45, R47, R74, R76, R78, R80, R81). -/

namespace Sys2Proof.Machine

variable {s t u : State} {i a : Nat} {l : List Nat} {taken victims : List Handle} {load : Grant → Grant} {c : Context}

/-- The state after the commit, as its answer finds it: the claim's records and the notices of both. -/
structure State.CommitEnds (i : Nat) (l : List Nat) (taken : List Handle) (load : Grant → Grant) (a : Nat)
    (n : BitVec 16 → Notice) (s t : State) : Prop where
  plan : ∀ m, t.planAt m = if m ∈ l then some i
    else if (s.planSlots i).contains m || taken.any (fun v => (s.planSlots v.index.toNat).contains m) then none
    else s.planAt m
  active : t.map.active = s.map.active
  counter : t.commitCounter = s.commitCounter + 1
  self : t.grant i = { load { s.grant i with planCount := l.length, commitSeq := s.commitCounter + 1 } with
    state := (t.grant i).state }
  pending : (s.grant i).activeCount = 0 → (t.grant i).state = .pending
  live : (s.grant i).activeCount ≠ 0 →
    (t.grant i).state = if t.planSlots i = s.activeSlots i then .live else .shifting
  victims : ∀ v ∈ taken, s.drainsOrFrees v.index.toNat t
  others : ∀ j, j ≠ i → (∀ v ∈ taken, v.index.toNat ≠ j) → t.grant j = s.grant j
  queues : taken = [] ∨ s.map.follows → ∀ b, s.queues b ((taken.filter (fun v => (s.grant v.index.toNat).owner == some b)).map
    (fun v => .revoked v .preempted (t.effectFor [v.index.toNat]).frame)
      ++ if b = a then [n (t.effectFor [i]).frame] else []) t
  engine : t.engine = { s.engine with context := none }

theorem sameRecords_refl (s : State) : SameRecords s s := ⟨rfl, rfl, rfl, rfl, rfl⟩

theorem State.Commits.ends {n : BitVec 16 → Notice} (h : s.Commits i l taken load u)
    (he : u.Ends a (n (u.effectFor [i]).frame) t) : s.CommitEnds i l taken load a n t := by
  have hgrant := he.records.grant
  refine ⟨fun m => by rw [he.records.planAt, h.plan], by rw [he.records.map, h.maps.1],
    by rw [he.records.commitCounter, h.claim.commitCounter], by rw [hgrant]; exact h.self, fun ha => ?_, fun ha => ?_,
    fun v hv => (sameRecords_refl s).drainsOrFrees he.records (h.victims v hv),
    fun j hj hv => by rw [hgrant, h.others j hj hv], fun hf b => ?_, by rw [he.engine, h.claim.engine]⟩
  · rw [hgrant, h.pending ha]
  · rw [hgrant, he.records.planSlots, h.live ha]
  · rw [he.records.effectFor [i]]
    exact h.queues_ends he hf b

/-- The commit of a CREATE or an ask. -/
theorem exec_commit_new {seq : BitVec 4} (hready : s.ready) (hc : s.engine.context = some c)
    (ho : c.outcome = .chosen l victims)
    (hkind : (∃ lease, c.kind = .create i lease ∧ seq = 0) ∨ ∃ code, c.kind = .ask i seq code) (hq : s.port.requests = [])
    (hm : (s.station c.station).state = .member ∨ (s.station c.station).state = .quiet) (hp : s.placesNew c i)
    (hmay : s.MayCommit i l (victims.filter s.victimStands)) :
    ∃ r t, exec .commitPoint s = .next t
      ∧ s.CommitEnds i l (victims.filter s.victimStands) (Grant.withLease r) c.station
          (fun f => .granted (s.handle i) (s.grant i).stream seq f) t
      ∧ ∀ e lease, c.kind = .create i lease → s.port.inProgress = some e →
          t.port = { s.port with
            inProgress := none
            results := s.port.results ++ [resultEntry e 0 (.placed (s.handle i) (t.effectFor [i]))] } := by
  have hcommits := fun r => commits_commitClaim (keepsPlace_withLease r) hmay
  rcases hkind with ⟨lease, hkind, rfl⟩ | ⟨code, hkind⟩
  · have hu := hcommits lease
    have hstep := exec_commit hready hc hm (by rw [hkind]; rfl) ho
    rw [commit_create hkind hp.2.2.1 hu] at hstep
    generalize s.commitClaim i l victims (Grant.withLease lease) = u at *
    obtain ⟨he, -, hport⟩ := ends_answerLocal (u := u) (a := c.station)
      (n := .granted (s.handle i) (s.grant i).stream 0 (u.effectFor [i]).frame)
      (r := .placed (s.handle i) (u.effectFor [i])) (by rw [hu.claim.port]; exact hq)
    generalize State.answerLocal (.placed (s.handle i) (u.effectFor [i])) _ = t at *
    refine ⟨lease, t, hstep, hu.ends he, fun e _ _ hprogress => ?_⟩
    have hport := hport e (by rw [hu.claim.port]; exact hprogress)
    rw [hu.claim.port] at hport
    rw [hport, he.records.effectFor [i]]
  · have hu := hcommits (s.cfg.leaseFor code)
    have hstep := exec_commit hready hc hm (by rw [hkind]; rfl) ho
    rw [commit_ask hkind hu] at hstep
    generalize s.commitClaim i l victims (Grant.withLease (s.cfg.leaseFor code)) = u at *
    obtain ⟨he, -⟩ := ends_answerAsk (u := u) (a := c.station)
      (n := .granted (s.handle i) (s.grant i).stream seq (u.effectFor [i]).frame) seq
    generalize State.endPlacement _ = t at *
    refine ⟨_, t, hstep, hu.ends he, fun e lease hcreate => ?_⟩
    rw [hkind] at hcreate
    nomatch hcreate

/-- The commit of a RESIZE. -/
theorem exec_commit_resize {h : Handle} (hready : s.ready) (hc : s.engine.context = some c)
    (ho : c.outcome = .chosen l victims) (hkind : c.kind = .resize h) (hq : s.port.requests = [])
    (hm : (s.station c.station).state = .member ∨ (s.station c.station).state = .quiet)
    (hp : s.handlePasses h = true) (hdr : (s.grant h.index.toNat).state ≠ .draining)
    (howner : (s.grant h.index.toNat).owner = some c.station)
    (hmay : s.MayCommit h.index.toNat l (victims.filter s.victimStands)) :
    ∃ t, exec .commitPoint s = .next t
      ∧ s.CommitEnds h.index.toNat l (victims.filter s.victimStands) (fun g => { g with requested := c.newCount }) c.station
          (fun f => .shifted h c.newCount f) t
      ∧ SameRecords (s.commitClaim h.index.toNat l victims (fun g => { g with requested := c.newCount })) t
      ∧ t.stations = (s.commitClaim h.index.toNat l victims (fun g => { g with requested := c.newCount })).stations
      ∧ ∀ e, s.port.inProgress = some e → t.port = { s.port with
          inProgress := none
          results := s.port.results ++ [resultEntry e 0 (.placed h (t.effectFor [h.index.toNat]))] } := by
  have hu := commits_commitClaim (keepsPlace_requested c.newCount) hmay
  have hretired : c.kind.retiredIn s = false := by
    rw [hkind]
    refine Bool.eq_false_iff.2 (fun k => ?_)
    rcases resizeRetired_iff.1 k with hk | hk
    · exact absurd (hk.symm.trans hp) Bool.false_ne_true
    · exact hdr hk
  have hstep := exec_commit hready hc hm hretired ho
  rw [commit_resize hkind hp howner hu] at hstep
  generalize s.commitClaim h.index.toNat l victims (fun g => { g with requested := c.newCount }) = u at *
  obtain ⟨he, -, hport⟩ := ends_answerLocal (u := u) (a := c.station)
    (n := .shifted h c.newCount (u.effectFor [h.index.toNat]).frame)
    (r := .placed h (u.effectFor [h.index.toNat])) (by rw [hu.claim.port]; exact hq)
  generalize State.answerLocal (.placed h (u.effectFor [h.index.toNat])) _ = t at *
  refine ⟨t, hstep, hu.ends he, he.records, he.stations, fun e hprogress => ?_⟩
  have hport := hport e (by rw [hu.claim.port]; exact hprogress)
  rw [hu.claim.port] at hport
  rw [hport, he.records.effectFor]

end Sys2Proof.Machine

namespace Sys2Proof.Proofs
open Sys2Proof.Machine

/-- Settles O39: the claim's effects (`commits_commitClaim`) carried through the answer (`exec_commit_new`, `exec_commit_resize`). -/
theorem commitsRetireTheirVictims : Obligations.CommitsRetireTheirVictims := by
  refine ⟨fun s c i slots victims taken seq hready hc houtcome hkind hq hfollows hmember hnew htaken hdistinct hretire hne
    hnodup hslots => ?_, fun s c h i slots victims taken hready hc houtcome hkind hi hq hfollows hmember hpass hdraining
    howner hcount htaken hdistinct hretire hne hnodup hslots => ?_⟩
  · obtain rfl : taken = victims.filter s.victimStands := htaken
    have hmay := mayCommit_new hnew hdistinct hretire hne hnodup hslots
    obtain ⟨r, t, hstep, hends, hport⟩ := exec_commit_new hready hc houtcome hkind hq hmember hnew hmay
    have hnone : s.planSlots i = [] := List.filter_eq_nil_iff.2 (fun n _ => by simpa using hnew.2.2.2.2.2 n)
    have hplan := hends.plan
    rw [hnone] at hplan
    have hself := hends.self
    refine ⟨t, hstep, hplan, hends.active, hends.counter, ⟨hends.pending hnew.2.2.2.2.1, ?_, ?_, ?_⟩, hends.victims,
      hends.others, hends.queues (.inr hfollows), fun e lease hcreate hp => ⟨_, hport e lease hcreate hp, places_resultEntry e _ _⟩⟩
    · rw [hself]; rfl
    · rw [hself]; rfl
    · rw [hself]; rfl
  · obtain rfl : taken = victims.filter s.victimStands := htaken
    subst hi
    have hmay := mayCommit_resize hpass hdraining hcount hdistinct hretire hne hnodup hslots
    obtain ⟨t, hstep, hends, -, -, hport⟩ :=
      exec_commit_resize hready hc houtcome hkind hq hmember hpass hdraining howner hmay
    refine ⟨t, hstep, hends.plan, hends.active, hends.counter, hends.self, hends.pending, hends.live, hends.victims,
      hends.others, hends.queues (.inr hfollows), fun e hp => ⟨_, hport e hp, places_resultEntry e h _⟩⟩

/-- Settles O40: the claim's effects and, without victims, its stations (`commitsAlone_commitClaim`). -/
theorem resizesCommit : Obligations.ResizesCommit := by
  intro s e c h i hready hc hkind hi hp hq hmember
  subst hi
  refine ⟨fun hgone => ?_, fun slots houtcome hpass hdraining howner hne hnodup hslots hcount hplanned => ?_⟩
  · have hretired : c.kind.retiredIn s = true := by
      rw [hkind]
      exact resizeRetired_iff.2 hgone
    have hstep : exec .commitPoint s = .next (s.endPlacement.answerLocal (.refused .retiring)) := by
      rw [exec_commitPoint hready.1 hready.2, commitPoint_of_context hc, endWith_retired hmember hretired]
    rw [answerLocal_of_no_requests (s := s.endPlacement) (e := e) (.refused .retiring) hp hq] at hstep
    exact ⟨_, _, hstep, refuses_resultEntry e .retiring, rfl⟩
  · have hmay : s.MayCommit h.index.toNat slots [] := mayCommit_resize (victims := []) hpass hdraining hcount List.nodup_nil
      nofun hne hnodup (fun n hn => ⟨(hslots n hn).1, (hslots n hn).2.imp_right .inl⟩)
    have halone := commitsAlone_commitClaim (keepsPlace_requested c.newCount) hmay
    obtain ⟨t, hstep, hends, hrecords, hstations, hport⟩ :=
      exec_commit_resize (victims := []) hready hc houtcome hkind hq hmember hpass hdraining howner hmay
    have hstation := State.station_congr hstations
    refine ⟨t, _, hstep, fun n => ?_, hends.active, hends.counter, hends.self, hends.pending, hends.live,
      fun j hj => hends.others j hj nofun, hrecords.freeQueue.trans halone.freeQueue, ?_, fun a ha => ?_, hends.engine,
      hport e hp, places_resultEntry e h _, fun hroom => ?_⟩
    · rw [hends.plan]
      by_cases hn : n ∈ s.planSlots h.index.toNat <;> simp [hn]
    · rw [hstation]
      exact halone.planned _ howner hplanned
    · rw [hstation]
      exact halone.stations a (fun k => ha (Option.some.inj (k.symm.trans howner)))
    · have hq := hends.queues (.inl rfl) c.station
      rw [if_pos rfl] at hq
      have hpresent : (s.station c.station).state.present = true := by
        rcases hmember with hs | hs <;> rw [hs] <;> rfl
      exact hq hpresent hroom

end Sys2Proof.Proofs
end

section
/-! The lease tick, record by record (R85 to R91). -/

namespace Sys2Proof.Machine

variable {s t u : State} {i j a : Nat} {l : List Nat}

/-! ## A retire claim on one record -/

theorem retiredIds_single (h : i < Config.grantCount) (hr : (s.grant i).state.retirable = true) : s.retiredIds [i] = [i] := by
  have hmem : ∀ j, j ∈ s.retiredIds [i] ↔ j = i := fun j => by
    rw [mem_retiredIds, List.mem_singleton]
    exact ⟨fun k => k.2.1, fun k => by rw [k]; exact ⟨h, rfl, hr⟩⟩
  have hperm : (s.retiredIds [i]).Perm [i] := (List.perm_ext_iff_of_nodup (nodup_retiredIds _ s) (List.nodup_singleton i)).2
    (fun j => by rw [hmem, List.mem_singleton])
  exact List.perm_singleton.1 hperm

theorem mem_retiredIds_single (h : j ∈ s.retiredIds [i]) : j = i := List.mem_singleton.1 (mem_retiredIds.1 h).2.1

theorem follows_retire (hf : s.map.follows) (named : List Nat) (why : Option RevokeReason) :
    (s.retire named why).1.map.follows := keptByAll_follows.toKept.retire named why hf

theorem effectFor_clearPlans_other (hf : s.map.follows) (h : ∀ j ∈ l, j ≠ i) : (s.clearPlans l).effectFor [i] = s.effectFor [i] := by
  induction l generalizing s with
  | nil => rfl
  | cons j l ih =>
    have hrest : (s.clearPlans (j :: l)).effectFor [i] = ((s.clearPlan j).clearPlans l).effectFor [i] := rfl
    rw [hrest, ih (follows_clearPlan hf j) (fun k hk => h k (List.mem_cons_of_mem _ hk)),
      effectFor_clearPlan_other hf (h j List.mem_cons_self)]

/-! ## What another record's steps leave of record `i` -/

/-- The steps of other records leave record `i`, its slots and the free ones, and the registers and the timer. -/
structure State.Spares (i : Nat) (s t : State) : Prop where
  grant : t.grant i = s.grant i
  slots : t.planSlots i = s.planSlots i
  freed : ∀ n, s.planAt n = none → t.planAt n = none
  cfg : t.cfg = s.cfg
  timer : t.timer = s.timer

theorem State.Spares.refl (i : Nat) (s : State) : s.Spares i s := ⟨rfl, rfl, fun _ h => h, rfl, rfl⟩

theorem State.Spares.trans (h : s.Spares i t) (k : t.Spares i u) : s.Spares i u :=
  ⟨k.grant.trans h.grant, k.slots.trans h.slots, fun n hn => k.freed n (h.freed n hn), k.cfg.trans h.cfg,
    k.timer.trans h.timer⟩

theorem spares_updGrant (hj : i ≠ j) (f : Grant → Grant) : s.Spares i (s.updGrant j f) :=
  ⟨by rw [State.grant_updGrant, if_neg hj], rfl, fun _ h => h, rfl, rfl⟩

theorem State.Spares.of_notice (h : NoticeOnly s t) : s.Spares i t :=
  ⟨h.grant i, h.planSlots i, fun n hn => by rw [h.planAt, hn], h.claimOnly.cfg, h.claimOnly.timer⟩

theorem spares_retire (hj : i ≠ j) (why : Option RevokeReason) : s.Spares i (s.retire [j] why).1 := by
  have hplan := planAt_retire [j] why s
  have hmine : ∀ n, s.planAt n = some i → (s.retiredIds [j]).any (fun k => (s.planSlots k).contains n) = false := fun n hn => by
    rw [Bool.eq_false_iff]
    intro hany
    obtain ⟨k, hk, hc⟩ := List.any_eq_true.1 hany
    obtain rfl := mem_retiredIds_single hk
    exact hj (Option.some.inj (hn.symm.trans (mem_planSlots.1 (List.contains_iff_mem.1 hc)).2))
  have hclaim := claimOnly_retire [j] why s
  refine ⟨grant_retire_other (fun k => hj (mem_retiredIds_single k)) why, ?_, fun n hn => ?_, hclaim.cfg, hclaim.timer⟩
  · unfold State.planSlots
    rw [hclaim.payload]
    refine List.filter_congr (fun n _ => ?_)
    rw [hplan]
    by_cases hn : s.planAt n = some i
    · rw [hmine n hn, if_neg Bool.false_ne_true]
    · split
      · simp [hn]
      · rfl
  · rw [hplan, hn]
    exact ite_self none

/-! ## The countdown and the warning (R87, R88) -/

/-- The record after the countdown, warned where the warning is due. -/
def Grant.ticked (warn : BitVec 8) (g : Grant) : Grant :=
  { g.countedDown with leaseWarned := g.leaseWarned || g.countedDown.warnDue warn }

theorem countedDown_warned (g : Grant) : g.countedDown.leaseWarned = g.leaseWarned := by
  unfold Grant.countedDown
  split <;> rfl

theorem countedDown_spares (g : Grant) : g.countedDown = { g with leaseRemaining := g.countedDown.leaseRemaining } := by
  unfold Grant.countedDown
  split <;> rfl

theorem tickLease_warned (h : (s.grant i).countedDown.warnDue s.cfg.leaseWarn = true) : s.tickLease i =
    ((s.updGrant i Grant.countedDown).noticeOwner i
      (.leaseLow (s.handle i) (s.grant i).countedDown.leaseRemaining)).updGrant i (fun g => { g with leaseWarned := true }) := by
  have hself : (s.updGrant i Grant.countedDown).grant i = (s.grant i).countedDown := by
    rw [State.grant_updGrant, if_pos rfl]
  have hhandle : (s.updGrant i Grant.countedDown).handle i = s.handle i := by
    unfold State.handle
    rw [hself, countedDown_spares]
  have hcfg : (s.updGrant i Grant.countedDown).cfg = s.cfg := rfl
  unfold State.tickLease
  dsimp only
  rw [hself, hcfg, if_pos h, hhandle]

theorem tickLease_unwarned (h : (s.grant i).countedDown.warnDue s.cfg.leaseWarn = false) :
    s.tickLease i = s.updGrant i Grant.countedDown := by
  have hself : (s.updGrant i Grant.countedDown).grant i = (s.grant i).countedDown := by
    rw [State.grant_updGrant, if_pos rfl]
  have hcfg : (s.updGrant i Grant.countedDown).cfg = s.cfg := rfl
  unfold State.tickLease
  dsimp only
  rw [hself, hcfg, if_neg (Bool.eq_false_iff.1 h)]

/-- Record `i` is written, and notices may be handed out; nothing else changes. -/
structure State.Writes (i : Nat) (g : Grant) (s t : State) : Prop where
  self : t.grant i = g
  others : ∀ j, j ≠ i → t.grant j = s.grant j
  rest : t = { s with grants := t.grants, mailboxes := t.mailboxes, ints := t.ints }

section
variable {g g' : Grant}

theorem writes_updGrant (i : Nat) (f : Grant → Grant) (s : State) : s.Writes i (f (s.grant i)) (s.updGrant i f) :=
  ⟨by rw [State.grant_updGrant, if_pos rfl], fun j hj => by rw [State.grant_updGrant, if_neg hj], rfl⟩

theorem writes_of_notice (h : NoticeOnly s t) (i : Nat) : s.Writes i (s.grant i) t := by
  refine ⟨h.grant i, fun j _ => h.grant j, ?_⟩
  unfold NoticeOnly at h
  rw [h]

theorem State.Writes.trans (h : s.Writes i g t) (k : t.Writes i g' u) : s.Writes i g' u :=
  ⟨k.self, fun j hj => (k.others j hj).trans (h.others j hj), by rw [k.rest, h.rest]⟩

variable (h : s.Writes i g t)
include h

theorem State.Writes.map : t.map = s.map := by rw [h.rest]
theorem State.Writes.cfg : t.cfg = s.cfg := by rw [h.rest]
theorem State.Writes.timer : t.timer = s.timer := by rw [h.rest]
theorem State.Writes.freeQueue : t.freeQueue = s.freeQueue := by rw [h.rest]
theorem State.Writes.commitCounter : t.commitCounter = s.commitCounter := by rw [h.rest]
theorem State.Writes.station (a : Nat) : t.station a = s.station a := State.station_congr (by rw [h.rest]) a
theorem State.Writes.planSlots (j : Nat) : t.planSlots j = s.planSlots j :=
  planSlots_congr (by unfold State.payload; rw [h.timer]) h.map j
theorem State.Writes.planAt (n : Nat) : t.planAt n = s.planAt n := by unfold State.planAt; rw [h.map]
theorem State.Writes.effectFor (l : List Nat) : t.effectFor l = s.effectFor l := effectFor_congr h.map h.timer l
theorem State.Writes.spares (hj : j ≠ i) : s.Spares j t :=
  ⟨h.others j hj, h.planSlots j, fun n hn => by rw [h.planAt, hn], h.cfg, h.timer⟩

end

/-- The countdown writes the record and tells its owner where the warning is due (R87, R88). -/
theorem writes_tickLease (i : Nat) (s : State) : s.Writes i ((s.grant i).ticked s.cfg.leaseWarn) (s.tickLease i) := by
  have hdown := writes_updGrant i Grant.countedDown s
  cases h : (s.grant i).countedDown.warnDue s.cfg.leaseWarn with
  | false =>
    have hsame : (s.grant i).ticked s.cfg.leaseWarn = (s.grant i).countedDown := by
      unfold Grant.ticked
      rw [h, Bool.or_false, ← countedDown_warned]
    rw [tickLease_unwarned h, hsame]
    exact hdown
  | true =>
    have hsame : (s.grant i).ticked s.cfg.leaseWarn = { (s.grant i).countedDown with leaseWarned := true } := by
      unfold Grant.ticked
      rw [h, Bool.or_true]
    rw [tickLease_warned h, hsame]
    have htold := hdown.trans (writes_of_notice (noticeOnly_noticeOwner i
      (.leaseLow (s.handle i) (s.grant i).countedDown.leaseRemaining) (s.updGrant i Grant.countedDown)) i)
    have hlast := writes_updGrant i (fun g => { g with leaseWarned := true }) ((s.updGrant i Grant.countedDown).noticeOwner i
      (.leaseLow (s.handle i) (s.grant i).countedDown.leaseRemaining))
    rw [htold.self, hdown.self] at hlast
    exact htold.trans hlast

theorem queues_noticeOwner {o : Option Nat} (ho : (s.grant i).owner = o) (n : Notice) (a : Nat) :
    s.queues a (if o = some a then [n] else []) (s.noticeOwner i n) := by
  unfold State.noticeOwner
  rw [ho]
  cases o with
  | none => exact queues_of_same rfl
  | some b =>
    have hq := queues_handNotice s b a n
    by_cases h : a = b
    · subst h
      rw [if_pos rfl] at hq ⊢
      exact hq
    · rw [if_neg h] at hq
      rw [if_neg (fun k => h (Option.some.inj k).symm)]
      exact hq

/-- The writes of a record change no notice. -/
theorem queues_updGrants {f f' : Grant → Grant} {n : List Notice} (h : (s.updGrant i f).queues a n t) :
    s.queues a n (t.updGrant i f') := h

theorem queues_tickLease (i : Nat) (s : State) (a : Nat) :
    s.queues a (if (s.grant i).owner = some a then
      (if (s.grant i).countedDown.warnDue s.cfg.leaseWarn then
        [.leaseLow (s.handle i) (s.cfg.leaseWarn.setWidth 16)] else []) else []) (s.tickLease i) := by
  have howner : ((s.updGrant i Grant.countedDown).grant i).owner = (s.grant i).owner := by
    rw [State.grant_updGrant, if_pos rfl, countedDown_spares]
  cases h : (s.grant i).countedDown.warnDue s.cfg.leaseWarn with
  | false =>
    rw [tickLease_unwarned h, if_neg Bool.false_ne_true, ite_self]
    exact queues_of_same rfl
  | true =>
    have hremaining : (s.grant i).countedDown.leaseRemaining = s.cfg.leaseWarn.setWidth 16 := by
      simp only [Grant.warnDue, Bool.and_eq_true, beq_iff_eq] at h
      exact h.1.2
    rw [tickLease_warned h, if_pos rfl, hremaining]
    exact queues_updGrants (queues_noticeOwner howner _ a)

end Sys2Proof.Machine
end

section
/-! One record's steps at a lease tick, and the whole tick (R85 to R91). -/

namespace Sys2Proof.Machine

variable {s t u : State} {i j a : Nat} {l : List Nat}

/-! ## The record after the countdown (R87, R88) -/

theorem ticked_spares (w : BitVec 8) (g : Grant) : g.ticked w =
    { g with leaseRemaining := g.countedDown.leaseRemaining, leaseWarned := g.leaseWarned || g.countedDown.warnDue w } := by
  unfold Grant.ticked
  rw [countedDown_spares]

theorem remaining_countedDown (g : Grant) : g.countedDown.leaseRemaining =
    if g.leaseReload = 0 then g.leaseRemaining else decNonzero g.leaseRemaining := by
  unfold Grant.countedDown
  split <;> rfl

theorem toNat_decNonzero (x : BitVec 16) : (decNonzero x).toNat = x.toNat - 1 := by
  unfold decNonzero
  split
  · rename_i h
    rw [h]
    rfl
  · rename_i h
    have hne : x.toNat ≠ 0 := fun k => h (BitVec.eq_of_toNat_eq k)
    rw [BitVec.toNat_sub_of_le (by rw [BitVec.le_def]; exact Nat.one_le_iff_ne_zero.2 hne)]
    rfl

/-- The lease comes to 0 in this tick (R89). -/
theorem expires_iff (w : BitVec 8) (g : Grant) : ((g.ticked w).leaseReload ≠ 0 ∧ (g.ticked w).leaseRemaining = 0) ↔
    (g.leaseReload ≠ 0 ∧ g.leaseRemaining.toNat ≤ 1) := by
  rw [ticked_spares]
  refine and_congr_right (fun hr => ?_)
  have hrem : g.countedDown.leaseRemaining = decNonzero g.leaseRemaining := by rw [remaining_countedDown, if_neg hr]
  dsimp only
  rw [hrem]
  have hzero : decNonzero g.leaseRemaining = 0 ↔ (decNonzero g.leaseRemaining).toNat = 0 :=
    ⟨fun h => by rw [h]; rfl, fun h => BitVec.eq_of_toNat_eq h⟩
  rw [hzero, toNat_decNonzero]
  omega

theorem setWidth_ne_zero {w : BitVec 8} (h : w ≠ 0) : w.setWidth 16 ≠ 0 := fun k => h (by
  have hk : (w.setWidth 16).toNat = 0 := by rw [k]; rfl
  rw [BitVec.toNat_setWidth_of_le (by omega)] at hk
  exact BitVec.eq_of_toNat_eq hk)

/-- The warning of a tick is due where the lease comes to LEASE_WARN (R88). -/
theorem warnDue_countedDown_iff {w : BitVec 8} {g : Grant} : g.countedDown.warnDue w = true ↔
    g.leaseReload ≠ 0 ∧ w ≠ 0 ∧ g.leaseWarned = false ∧ g.leaseRemaining - 1 = w.setWidth 16 := by
  have hreload : g.countedDown.leaseReload = g.leaseReload := by rw [countedDown_spares]
  have hdue : g.countedDown.warnDue w = true ↔ g.leaseReload ≠ 0 ∧ w ≠ 0 ∧ g.leaseWarned = false
      ∧ g.countedDown.leaseRemaining = w.setWidth 16 := by
    simp only [Grant.warnDue, Bool.and_eq_true, bne_iff_ne, beq_iff_eq, Bool.not_eq_true', hreload, countedDown_warned]
    tauto
  rw [hdue]
  refine and_congr_right (fun hr => and_congr_right (fun hw => and_congr_right (fun _ => ?_)))
  rw [remaining_countedDown, if_neg hr]
  unfold decNonzero
  split
  · rename_i hz
    rw [hz]
    have hlt : (w.setWidth 16).toNat < 256 := by
      rw [BitVec.toNat_setWidth_of_le (by omega)]
      exact w.isLt
    refine ⟨fun k => absurd k.symm (setWidth_ne_zero hw), fun k => ?_⟩
    rw [← k] at hlt
    exact absurd hlt (by decide)
  · rfl

/-! ## One record (R86, R89 to R91) -/

/-- The record's steps where its lease stands: the countdown and the idle count. -/
def State.tickStands (i : Nat) (s : State) : State := (s.tickLease i).updGrant i Grant.idled

theorem writes_tickStands (i : Nat) (s : State) :
    s.Writes i ((s.grant i).ticked s.cfg.leaseWarn).idled (s.tickStands i) := by
  have hfirst := writes_tickLease i s
  have hlast := writes_updGrant i Grant.idled (s.tickLease i)
  rw [hfirst.self] at hlast
  exact hfirst.trans hlast

theorem counted_state_iff {g : Grant} : g.state.counted = true ↔ g.state = .live ∨ g.state = .shifting := by
  cases g.state <;> simp [GrantState.counted]

theorem retirable_of_counted {x : GrantState} (h : x.counted = true) : x.retirable = true := by
  cases x with
  | live => rfl
  | shifting => rfl
  | free => nomatch h
  | placing => nomatch h
  | pending => nomatch h
  | draining => nomatch h

/-- The idle ticks come to IDLE_LIMIT (R91). -/
def State.reclaims (i : Nat) (s : State) : Prop := s.cfg.idleLimit ≠ 0 ∧ s.cfg.idleLimit ≤ (s.grant i).idleAfter

/-- The lease comes to 0 (R89). -/
def State.lapses (i : Nat) (s : State) : Prop := (s.grant i).leaseReload ≠ 0 ∧ (s.grant i).leaseRemaining.toNat ≤ 1

theorem tickRecord_uncounted (h : (s.grant i).state.counted = false) : s.tickRecord i = s := by
  unfold State.tickRecord
  rw [if_neg (Bool.eq_false_iff.1 h)]

theorem tickRecord_lapses (hc : (s.grant i).state.counted = true) (h : s.lapses i) :
    s.tickRecord i = ((s.tickLease i).retire [i] (some .expired)).1 := by
  have hself := (writes_tickLease i s).self
  unfold State.tickRecord
  dsimp only
  rw [if_pos hc, hself, if_pos ((expires_iff _ _).2 h)]

theorem tickRecord_tickIdle (hc : (s.grant i).state.counted = true) (h : ¬ s.lapses i) :
    s.tickRecord i = (s.tickLease i).tickIdle i := by
  have hself := (writes_tickLease i s).self
  unfold State.tickRecord
  dsimp only
  rw [if_pos hc, hself, if_neg (fun k => h ((expires_iff _ _).1 k))]

theorem tickIdle_if (i : Nat) (s : State) : (s.tickLease i).tickIdle i =
    if (s.tickStands i).cfg.idleLimit ≠ 0 ∧ (s.tickStands i).cfg.idleLimit ≤ ((s.tickStands i).grant i).idleTicks then
      ((s.tickStands i).retire [i] (some .idle)).1 else s.tickStands i := rfl

theorem idleTicks_tickStands (i : Nat) (s : State) : ((s.tickStands i).grant i).idleTicks = (s.grant i).idleAfter := by
  rw [(writes_tickStands i s).self, idled_idleTicks, ticked_spares]
  rfl

theorem tickRecord_reclaims (hc : (s.grant i).state.counted = true) (h : ¬ s.lapses i) (hr : s.reclaims i) :
    s.tickRecord i = ((s.tickStands i).retire [i] (some .idle)).1 := by
  have hidle := idleTicks_tickStands i s
  have hcfg := (writes_tickStands i s).cfg
  rw [tickRecord_tickIdle hc h, tickIdle_if, hidle, hcfg]
  exact if_pos hr

theorem tickRecord_stands (hc : (s.grant i).state.counted = true) (h : ¬ s.lapses i) (hr : ¬ s.reclaims i) :
    s.tickRecord i = s.tickStands i := by
  have hidle := idleTicks_tickStands i s
  have hcfg := (writes_tickStands i s).cfg
  rw [tickRecord_tickIdle hc h, tickIdle_if, hidle, hcfg]
  exact if_neg hr

/-- The four ways of a record at a tick: not counted, its lease lapses, it is reclaimed, or it stands. -/
theorem tickRecord_cases {motive : State → Prop} (i : Nat) (s : State)
    (uncounted : (s.grant i).state.counted = false → motive s)
    (lapses : (s.grant i).state.counted = true → s.lapses i → motive ((s.tickLease i).retire [i] (some .expired)).1)
    (reclaims : (s.grant i).state.counted = true → ¬ s.lapses i → s.reclaims i →
      motive ((s.tickStands i).retire [i] (some .idle)).1)
    (stands : (s.grant i).state.counted = true → ¬ s.lapses i → ¬ s.reclaims i → motive (s.tickStands i)) :
    motive (s.tickRecord i) := by
  by_cases hc : (s.grant i).state.counted = true
  · by_cases hl : s.lapses i
    · rw [tickRecord_lapses hc hl]
      exact lapses hc hl
    · by_cases hr : s.reclaims i
      · rw [tickRecord_reclaims hc hl hr]
        exact reclaims hc hl hr
      · rw [tickRecord_stands hc hl hr]
        exact stands hc hl hr
  · rw [tickRecord_uncounted (Bool.eq_false_iff.2 hc)]
    exact uncounted (Bool.eq_false_iff.2 hc)

/-! ## What a record's steps leave of the others -/

theorem spares_tickRecord (hj : j ≠ i) (s : State) : s.Spares j (s.tickRecord i) := by
  refine tickRecord_cases (motive := fun t => s.Spares j t) i s (fun _ => .refl j s) (fun _ _ => ?_) (fun _ _ _ => ?_)
    (fun _ _ _ => (writes_tickStands i s).spares hj)
  · exact ((writes_tickLease i s).spares hj).trans (spares_retire hj _)
  · exact ((writes_tickStands i s).spares hj).trans (spares_retire hj _)

theorem State.Writes.follows {g : Grant} (h : s.Writes i g t) (hf : s.map.follows) : t.map.follows := by rw [h.map]; exact hf

theorem follows_tickRecord (hf : s.map.follows) (i : Nat) : (s.tickRecord i).map.follows := by
  refine tickRecord_cases (motive := fun t => t.map.follows) i s (fun _ => hf) (fun _ _ => ?_) (fun _ _ _ => ?_)
    (fun _ _ _ => (writes_tickStands i s).follows hf)
  · exact follows_retire ((writes_tickLease i s).follows hf) _ _
  · exact follows_retire ((writes_tickStands i s).follows hf) _ _

theorem effectFor_retire_other (hf : s.map.follows) (hj : j ≠ i) (why : Option RevokeReason) :
    (s.retire [i] why).1.effectFor [j] = s.effectFor [j] := by
  rw [effectFor_retire, effectFor_clearPlans_other hf (fun k hk => by rw [mem_retiredIds_single hk]; exact hj.symm)]

theorem effectFor_tickRecord_other (hf : s.map.follows) (hj : j ≠ i) :
    (s.tickRecord i).effectFor [j] = s.effectFor [j] := by
  refine tickRecord_cases (motive := fun t => t.effectFor [j] = s.effectFor [j]) i s (fun _ => rfl) (fun _ _ => ?_)
    (fun _ _ _ => ?_) (fun _ _ _ => (writes_tickStands i s).effectFor [j])
  · rw [effectFor_retire_other ((writes_tickLease i s).follows hf) hj]
    exact (writes_tickLease i s).effectFor [j]
  · rw [effectFor_retire_other ((writes_tickStands i s).follows hf) hj]
    exact (writes_tickStands i s).effectFor [j]

theorem claimedTo_tickRecord (i : Nat) (s : State) (a : Nat) : (s.station a).ClaimedTo ((s.tickRecord i).station a) := by
  refine tickRecord_cases (motive := fun t => (s.station a).ClaimedTo (t.station a)) i s (fun _ => .refl _) (fun _ _ => ?_)
    (fun _ _ _ => ?_) (fun _ _ _ => by rw [(writes_tickStands i s).station]; exact .refl _)
  · have hr := claimedTo_retire [i] (some .expired) (s.tickLease i) a
    rw [(writes_tickLease i s).station] at hr
    exact hr
  · have hr := claimedTo_retire [i] (some .idle) (s.tickStands i) a
    rw [(writes_tickStands i s).station] at hr
    exact hr

end Sys2Proof.Machine
end

section
/-! The lease tick: what it counts, whom it tells, and which grants it reclaims (O12, O13, O14; R85 to R91, R95). -/

namespace Sys2Proof.Machine

variable {s t u : State} {i j a : Nat} {l : List Nat} {p : EndParts}

/-! ## The notices of one record (R88, R89, R91) -/

theorem State.Writes.handle {g : Grant} (h : s.Writes i g t) (hg : g.generation = (s.grant i).generation) :
    t.handle i = s.handle i := by
  unfold State.handle
  rw [h.self, hg]

/-- The notices of a record that is retired after its own steps: those of the steps, and REVOKED. -/
theorem queues_retire_written {g : Grant} {r : RevokeReason} {n : List Notice} (hi : i < Config.grantCount)
    (hr : (s.grant i).state.retirable = true) (h : s.Writes i g t)
    (hg : g.state = (s.grant i).state ∧ g.owner = (s.grant i).owner ∧ g.generation = (s.grant i).generation)
    (hq : s.queues a (if (s.grant i).owner = some a then n else []) t) :
    s.queues a (if (s.grant i).owner = some a then
      n ++ [.revoked (s.handle i) r ((t.retire [i] (some r)).1.effectFor [i]).frame] else []) (t.retire [i] (some r)).1 := by
  obtain ⟨hstate, howner, hgen⟩ := hg
  have hlast := queues_retire [i] r t a
  rw [retiredIds_single hi (by rw [h.self, hstate]; exact hr), List.filter_cons, h.self, howner] at hlast
  have hpresent : (s.station a).state.present = true → (t.station a).state.present = true := fun hp => by
    rw [h.station]
    exact hp
  have hall := queues_trans hpresent hq hlast
  by_cases ho : (s.grant i).owner = some a
  · rw [if_pos ho] at hall ⊢
    have hsingle : t.handle i = s.handle i := h.handle hgen
    rw [if_pos (by rw [ho]; exact beq_self_eq_true _), List.filter_nil, List.map_singleton, hsingle] at hall
    exact hall
  · rw [if_neg ho] at hall ⊢
    rw [if_neg (fun k => ho (eq_of_beq k))] at hall
    exact hall

theorem ticked_keeps (w : BitVec 8) (g : Grant) : (g.ticked w).state = g.state ∧ (g.ticked w).owner = g.owner
    ∧ (g.ticked w).generation = g.generation := by
  rw [ticked_spares]
  exact ⟨rfl, rfl, rfl⟩

theorem idled_keeps (g : Grant) : g.idled.state = g.state ∧ g.idled.owner = g.owner ∧ g.idled.generation = g.generation :=
  ⟨rfl, rfl, rfl⟩

theorem queues_tickStands (i : Nat) (s : State) (a : Nat) :
    s.queues a (if (s.grant i).owner = some a then
      (if (s.grant i).countedDown.warnDue s.cfg.leaseWarn then
        [.leaseLow (s.handle i) (s.cfg.leaseWarn.setWidth 16)] else []) else []) (s.tickStands i) := by
  have h := queues_tickLease i s a
  unfold State.tickStands
  generalize s.tickLease i = w at h
  exact h

theorem tickNotices_eq (hc : (s.grant i).state.counted = true) (t : State) : s.tickNotices i t =
    (if (s.grant i).countedDown.warnDue s.cfg.leaseWarn then
        [.leaseLow (s.handle i) (s.cfg.leaseWarn.setWidth 16)] else [])
      ++ (if (s.grant i).leaseReload ≠ 0 ∧ (s.grant i).leaseRemaining.toNat ≤ 1 then
          [.revoked (s.handle i) .expired (t.effectFor [i]).frame]
        else if s.cfg.idleLimit ≠ 0 ∧ s.cfg.idleLimit ≤ (s.grant i).idleAfter then
          [.revoked (s.handle i) .idle (t.effectFor [i]).frame]
        else []) := by
  unfold State.tickNotices
  dsimp only
  rw [if_pos (counted_state_iff.1 hc)]
  exact congrArg (· ++ _) (if_congr (by rw [warnDue_countedDown_iff]) rfl rfl)

theorem queues_tickRecord (hi : i < Config.grantCount) (s : State) (a : Nat) :
    s.queues a (if (s.grant i).owner = some a then s.tickNotices i (s.tickRecord i) else []) (s.tickRecord i) := by
  refine tickRecord_cases (motive := fun t => s.queues a (if (s.grant i).owner = some a then s.tickNotices i t else []) t) i s
    (fun hc => ?_) (fun hc hl => ?_) (fun hc hl hr => ?_) (fun hc hl hr => ?_)
  · rw [tickNotices_of_uncounted (fun k => by rw [counted_state_iff.2 k] at hc; nomatch hc), ite_self]
    exact queues_of_same rfl
  · unfold State.lapses at hl
    rw [tickNotices_eq hc, if_pos hl]
    exact queues_retire_written hi (retirable_of_counted hc) (writes_tickLease i s) (ticked_keeps _ _) (queues_tickLease i s a)
  · unfold State.lapses at hl
    unfold State.reclaims at hr
    rw [tickNotices_eq hc, if_neg hl, if_pos hr]
    refine queues_retire_written hi (retirable_of_counted hc) (writes_tickStands i s) ?_ (queues_tickStands i s a)
    exact ticked_keeps s.cfg.leaseWarn (s.grant i)
  · unfold State.lapses at hl
    unfold State.reclaims at hr
    rw [tickNotices_eq hc, if_neg hl, if_neg hr, List.append_nil]
    exact queues_tickStands i s a

/-! ## The tick (R85) -/

/-- The steps of these records in turn. -/
def State.tickAll (l : List Nat) (s : State) : State := l.foldl (fun s i => s.tickRecord i) s

theorem tickAll_cons (i : Nat) (l : List Nat) (s : State) : s.tickAll (i :: l) = (s.tickRecord i).tickAll l := rfl

theorem tick_eq (s : State) : s.tick = s.tickAll (List.range 240) := rfl

theorem spares_tickAll (h : i ∉ l) : s.Spares i (s.tickAll l) := by
  induction l generalizing s with
  | nil => exact .refl i s
  | cons j l ih =>
    obtain ⟨hij, hl⟩ := not_or.1 (mt List.mem_cons.2 h)
    exact (spares_tickRecord hij s).trans (ih hl)

theorem effectFor_tickAll_other (hf : s.map.follows) (h : i ∉ l) : (s.tickAll l).effectFor [i] = s.effectFor [i] := by
  induction l generalizing s with
  | nil => rfl
  | cons j l ih =>
    obtain ⟨hij, hl⟩ := not_or.1 (mt List.mem_cons.2 h)
    rw [tickAll_cons, ih (follows_tickRecord hf j) hl, effectFor_tickRecord_other hf hij]

/-- The notices of a record follow from the record, the registers and the frame of its retirement. -/
theorem tickNotices_congr {t' : State} (hg : u.grant i = s.grant i) (hc : u.cfg = s.cfg)
    (he : t'.effectFor [i] = t.effectFor [i]) : u.tickNotices i t' = s.tickNotices i t := by
  unfold State.tickNotices State.handle
  rw [hg, hc, he]

theorem queues_tickAll (hd : l.Nodup) (hl : ∀ i ∈ l, i < Config.grantCount) (hf : s.map.follows) (a : Nat) :
    s.queues a (l.flatMap (fun i => if (s.grant i).owner = some a then s.tickNotices i (s.tickAll l) else []))
      (s.tickAll l) := by
  induction l generalizing s with
  | nil => exact queues_of_same rfl
  | cons i l ih =>
    obtain ⟨hi, hd⟩ := List.nodup_cons.1 hd
    have hrest := ih (s := s.tickRecord i) hd (fun j hj => hl j (List.mem_cons_of_mem _ hj)) (follows_tickRecord hf i)
    have hlater : ∀ j ∈ l, (if ((s.tickRecord i).grant j).owner = some a then
        (s.tickRecord i).tickNotices j ((s.tickRecord i).tickAll l) else [])
        = (if (s.grant j).owner = some a then s.tickNotices j (s.tickAll (i :: l)) else []) := fun j hj => by
      have hspares := spares_tickRecord (fun k : j = i => hi (k ▸ hj)) s
      rw [hspares.grant, tickNotices_congr hspares.grant hspares.cfg rfl, tickAll_cons]
    rw [List.flatMap_congr hlater] at hrest
    rw [List.flatMap_cons]
    refine queues_trans (fun hp => (claimedTo_tickRecord i s a).present hp) ?_ hrest
    have hself := queues_tickRecord (hl i List.mem_cons_self) s a
    have hframe : (s.tickAll (i :: l)).effectFor [i] = (s.tickRecord i).effectFor [i] :=
      effectFor_tickAll_other (follows_tickRecord hf i) hi
    rw [tickNotices_congr (s := s) (u := s) rfl rfl hframe]
    exact hself

/-- A record's own steps stand between those of the records before and after it. -/
theorem tick_split (hi : i < 240) (s : State) : ∃ before after,
    s.tick = ((s.tickAll before).tickRecord i).tickAll after ∧ (i ∉ before ∧ i ∉ after)
      ∧ (∀ j ∈ before, j < 240) ∧ ∀ j ∈ after, j < 240 := by
  obtain ⟨before, after, hsplit⟩ := List.append_of_mem (List.mem_range.2 hi)
  have hnodup : (List.range 240).Nodup := List.nodup_range
  rw [hsplit] at hnodup
  obtain ⟨hmid, -⟩ := List.nodup_cons.1 (List.perm_middle.nodup_iff.1 hnodup)
  have hlt : ∀ j ∈ before ++ i :: after, j < 240 := fun j hj => List.mem_range.1 (hsplit ▸ hj)
  refine ⟨before, after, ?_, not_or.1 (mt List.mem_append.2 hmid), fun j hj => hlt j (List.mem_append_left _ hj),
    fun j hj => hlt j (List.mem_append_right _ (List.mem_cons_of_mem _ hj))⟩
  rw [tick_eq, hsplit]
  unfold State.tickAll
  rw [List.foldl_append]
  rfl

theorem tick_around (hi : i < 240) (s : State) : ∃ u, s.Spares i u ∧ (u.tickRecord i).Spares i s.tick := by
  obtain ⟨before, after, htick, ⟨hbefore, hafter⟩, -⟩ := tick_split hi s
  rw [htick]
  exact ⟨s.tickAll before, spares_tickAll hbefore, spares_tickAll hafter⟩

theorem tickAll_uncounted (h : ∀ j ∈ l, (s.grant j).state.counted = false) : s.tickAll l = s := by
  induction l with
  | nil => rfl
  | cons j l ih =>
    rw [tickAll_cons, tickRecord_uncounted (h j List.mem_cons_self), ih (fun k hk => h k (List.mem_cons_of_mem _ hk))]

/-- Where one record alone is counted, its steps are the tick. -/
theorem tick_alone (hi : i < 240) (h : s.countedAlone i) : s.tick = s.tickRecord i := by
  have huncounted : ∀ j, j < 240 → j ≠ i → (s.grant j).state.counted = false := fun j hj hji => by
    obtain ⟨hlive, hshifting⟩ := h j hj hji
    exact Bool.eq_false_iff.2 (fun k => (counted_state_iff.1 k).elim hlive hshifting)
  obtain ⟨before, after, htick, ⟨hbefore, hafter⟩, hlow, hhigh⟩ := tick_split hi s
  have hfirst : s.tickAll before = s := tickAll_uncounted (fun j hj =>
    huncounted j (hlow j hj) (fun k => hbefore (k ▸ hj)))
  rw [htick, hfirst]
  refine tickAll_uncounted (fun j hj => ?_)
  have hji : j ≠ i := fun k => hafter (k ▸ hj)
  rw [(spares_tickRecord hji s).grant]
  exact huncounted j (hhigh j hj) hji

end Sys2Proof.Machine
end

section
/-! The lease tick as a step (O12, O13, O14; R85 to R91, R95). -/

namespace Sys2Proof.Machine

variable {s t u : State} {i j a : Nat} {p : EndParts} {g : Grant}

/-! ## The step -/

theorem exec_leaseTick (hready : s.ready) (h : s.tickIsDue p) :
    exec .leaseTick s = .next (s.tick.goTo (.endDue { p with leases := true })) := by
  rw [exec_of_ready rfl hready]
  exact congrArg _ (frameEnd_of_tick h).1

theorem effectFor_goTo_endDue {q : EndParts} (h : s.timer.timing = .running (.endDue p)) (l : List Nat) :
    (s.goTo (.endDue q)).effectFor l = s.effectFor l := by
  have hnext : (s.goTo (.endDue q)).timer.nextFrame = s.timer.nextFrame := by
    have hold : s.timer.nextFrame = s.timer.fn + 1 := by
      unfold Timer.nextFrame
      rw [h]
    rw [hold]
    rfl
  have hmap : (s.goTo (.endDue q)).map = s.map := rfl
  unfold State.effectFor
  rw [hmap, hnext]

theorem effectFor_after_tick (h : s.tickIsDue p) (q : EndParts) (l : List Nat) :
    (s.tick.goTo (.endDue q)).effectFor l = s.tick.effectFor l :=
  effectFor_goTo_endDue (p := p) (by rw [timer_tick]; exact h.1) l

theorem endIsDue_goTo (q : EndParts) (s : State) : (s.goTo (.endDue q)).endIsDue q := rfl

theorem grant_goTo (q : FramePlace) (i : Nat) (s : State) : (s.goTo q).grant i = s.grant i := rfl

theorem planAt_goTo (q : FramePlace) (n : Nat) (s : State) : (s.goTo q).planAt n = s.planAt n := rfl

theorem queues_goTo {n : List Notice} {q : FramePlace} (h : s.queues a n t) : s.queues a n (t.goTo q) := h

theorem retiredTo_goTo {q : FramePlace} (h : s.retiredTo i t) : s.retiredTo i (t.goTo q) := h

/-! ## A retired record at the tick (R89, R91) -/

theorem State.Spares.canRetire (h : s.Spares i u) (hr : s.canRetire i) : u.canRetire i := by
  obtain ⟨hlt, hstate, hcount⟩ := hr
  refine ⟨hlt, ?_, ?_⟩
  · rw [h.grant]
    exact hstate
  · rw [h.grant, h.slots]
    exact hcount

theorem State.Writes.canRetire (h : s.Writes i g t) (hs : g.state = (s.grant i).state)
    (hp : g.planCount = (s.grant i).planCount) (hr : s.canRetire i) : t.canRetire i := by
  obtain ⟨hlt, hstate, hcount⟩ := hr
  refine ⟨hlt, ?_, ?_⟩
  · rw [h.self, hs]
    exact hstate
  · rw [h.self, hp, h.planSlots]
    exact hcount

theorem State.Writes.retiredTo {r : State} (h : s.Writes i g t) (hg : g.generation = (s.grant i).generation)
    (hr : t.retiredTo i r) : s.retiredTo i r := by
  obtain ⟨hplan, hmaps, hgrant, hothers, hcounter⟩ := hr
  rw [h.map] at hmaps
  rw [h.self, hg, h.freeQueue] at hgrant
  refine ⟨fun n => ?_, hmaps, hgrant, fun j hj => (hothers j hj).trans (h.others j hj), hcounter.trans h.commitCounter⟩
  have hn := hplan n
  rw [h.planAt] at hn
  refine hn.trans (if_congr ?_ rfl rfl)
  rw [h.planSlots]

/-- The record retired after its own steps: nothing in PLAN, and DRAINING while ACTIVE gives it slots (R45). -/
theorem retire_written (hr : s.canRetire i) (ha : (s.grant i).activeCount ≠ 0) (h : s.Writes i g t)
    (hg : g.state = (s.grant i).state ∧ g.planCount = (s.grant i).planCount ∧ g.activeCount = (s.grant i).activeCount)
    (why : Option RevokeReason) : (t.retire [i] why).1.grant i = { g with state := .draining, planCount := 0 }
      ∧ ∀ n ∈ s.planSlots i, (t.retire [i] why).1.planAt n = none := by
  obtain ⟨hstate, hplan, hactive⟩ := hg
  have hrt := h.canRetire hstate hplan hr
  refine ⟨?_, fun n hn => ?_⟩
  · rw [grant_retire_active (List.mem_singleton.2 rfl) hrt (by rw [h.self, hactive]; exact ha), h.self]
  · rw [planAt_retire, retiredIds_one hrt]
    refine if_pos ?_
    rw [List.any_cons, List.any_nil, Bool.or_false, h.planSlots]
    exact List.contains_iff_mem.2 hn

theorem ticked_counts (w : BitVec 8) (g : Grant) : (g.ticked w).state = g.state ∧ (g.ticked w).planCount = g.planCount
    ∧ (g.ticked w).activeCount = g.activeCount := by
  rw [ticked_spares]
  exact ⟨rfl, rfl, rfl⟩

/-- The last countdown draws no warning, since LEASE_WARN 0 draws none (R88). -/
theorem ticked_of_last {w : BitVec 8} (hl : g.leaseReload ≠ 0) (h : g.leaseRemaining = 1) :
    g.ticked w = { g with leaseRemaining := 0 } := by
  have hrem : g.countedDown.leaseRemaining = 0 := by
    rw [remaining_countedDown, if_neg hl, h]
    rfl
  have hwarn : g.countedDown.warnDue w = false := Bool.eq_false_iff.2 (fun k => by
    obtain ⟨-, hw, -, heq⟩ := warnDue_countedDown_iff.1 k
    rw [h] at heq
    exact setWidth_ne_zero hw heq.symm)
  rw [ticked_spares, hrem, hwarn, Bool.or_false]

theorem ticked_of_stays {w : BitVec 8} (h : g.leaseReload = 0 ∨ 2 ≤ g.leaseRemaining.toNat) : g.ticked w =
    { g with leaseRemaining := if g.leaseReload = 0 then g.leaseRemaining else g.leaseRemaining - 1
             leaseWarned := g.leaseWarned || g.countedDown.warnDue w } := by
  have hrem : g.countedDown.leaseRemaining = if g.leaseReload = 0 then g.leaseRemaining else g.leaseRemaining - 1 := by
    rw [remaining_countedDown]
    by_cases hr : g.leaseReload = 0
    · rw [if_pos hr, if_pos hr]
    · rw [if_neg hr, if_neg hr]
      have hne : g.leaseRemaining ≠ 0 := fun k => by
        have hbig := h.resolve_left hr
        rw [k] at hbig
        exact absurd hbig (by decide)
      unfold decNonzero
      exact if_neg hne
  rw [ticked_spares, hrem]

theorem not_lapses_of_stays (h : (s.grant i).leaseReload = 0 ∨ 2 ≤ (s.grant i).leaseRemaining.toNat) : ¬ s.lapses i :=
  fun ⟨hr, hle⟩ => by
    have := h.resolve_left hr
    omega

theorem State.Spares.lapses (h : s.Spares i u) : u.lapses i ↔ s.lapses i := by
  unfold State.lapses
  rw [h.grant]

theorem State.Spares.reclaims (h : s.Spares i u) : u.reclaims i ↔ s.reclaims i := by
  unfold State.reclaims
  rw [h.grant, h.cfg]

/-! ## The record after the whole tick -/

theorem grant_tick_uncounted (hi : i < 240) (h : (s.grant i).state.counted = false) : s.tick.grant i = s.grant i := by
  obtain ⟨u, hbefore, hafter⟩ := tick_around hi s
  rw [hafter.grant, tickRecord_uncounted (by rw [hbefore.grant]; exact h), hbefore.grant]

theorem grant_tick_stands (hi : i < 240) (hc : (s.grant i).state.counted = true) (hl : ¬ s.lapses i) (hr : ¬ s.reclaims i) :
    s.tick.grant i = ((s.grant i).ticked s.cfg.leaseWarn).idled := by
  obtain ⟨u, hbefore, hafter⟩ := tick_around hi s
  rw [hafter.grant, tickRecord_stands (by rw [hbefore.grant]; exact hc) (mt hbefore.lapses.1 hl)
    (mt hbefore.reclaims.1 hr), (writes_tickStands i u).self, hbefore.grant, hbefore.cfg]

theorem grant_tick_lapses (hi : i < 240) (hc : (s.grant i).state.counted = true) (hl : s.lapses i) (hr : s.canRetire i)
    (ha : (s.grant i).activeCount ≠ 0) :
    s.tick.grant i = { (s.grant i).ticked s.cfg.leaseWarn with state := .draining, planCount := 0 }
      ∧ ∀ n ∈ s.planSlots i, s.tick.planAt n = none := by
  obtain ⟨u, hbefore, hafter⟩ := tick_around hi s
  have hretire := retire_written (hbefore.canRetire hr) (by rw [hbefore.grant]; exact ha) (writes_tickLease i u)
    (ticked_counts _ _) (some .expired)
  rw [← tickRecord_lapses (by rw [hbefore.grant]; exact hc) (hbefore.lapses.2 hl), hbefore.grant, hbefore.cfg,
    hbefore.slots] at hretire
  exact ⟨hafter.grant.trans hretire.1, fun n hn => hafter.freed n (hretire.2 n hn)⟩

theorem grant_tick_reclaims (hi : i < 240) (hc : (s.grant i).state.counted = true) (hl : ¬ s.lapses i) (hi' : s.reclaims i)
    (hr : s.canRetire i) (ha : (s.grant i).activeCount ≠ 0) :
    s.tick.grant i = { ((s.grant i).ticked s.cfg.leaseWarn).idled with state := .draining, planCount := 0 }
      ∧ ∀ n ∈ s.planSlots i, s.tick.planAt n = none := by
  obtain ⟨u, hbefore, hafter⟩ := tick_around hi s
  have hcounts : ((u.grant i).ticked u.cfg.leaseWarn).idled.state = (u.grant i).state
      ∧ ((u.grant i).ticked u.cfg.leaseWarn).idled.planCount = (u.grant i).planCount
      ∧ ((u.grant i).ticked u.cfg.leaseWarn).idled.activeCount = (u.grant i).activeCount :=
    ticked_counts u.cfg.leaseWarn (u.grant i)
  have hretire := retire_written (hbefore.canRetire hr) (by rw [hbefore.grant]; exact ha) (writes_tickStands i u)
    hcounts (some .idle)
  rw [← tickRecord_reclaims (by rw [hbefore.grant]; exact hc) (mt hbefore.lapses.1 hl) (hbefore.reclaims.2 hi'),
    hbefore.grant, hbefore.cfg, hbefore.slots] at hretire
  exact ⟨hafter.grant.trans hretire.1, fun n hn => hafter.freed n (hretire.2 n hn)⟩

end Sys2Proof.Machine

namespace Sys2Proof.Proofs
open Sys2Proof.Machine

/-- Settles O12: a record's own steps stand between those of records that spare it (`tick_around`), and the notices of all add up
(`queues_tickAll`). -/
theorem leaseTickCounts : Obligations.LeaseTickCounts := by
  refine ⟨fun s p i hready hdue hi => ⟨s.tick.goTo (.endDue { p with leases := true }), exec_leaseTick hready hdue,
    endIsDue_goTo _ _,
    fun hlive hshifting => ?_, fun hstate hlease hidle warned hwarned => ?_⟩, fun s p hready hdue hf =>
    ⟨s.tick.goTo (.endDue { p with leases := true }), exec_leaseTick hready hdue, fun a => ?_⟩⟩
  · rw [grant_goTo]
    exact grant_tick_uncounted hi (Bool.eq_false_iff.2 (fun k => (counted_state_iff.1 k).elim hlive hshifting))
  · have hc := counted_state_iff.2 hstate
    have hl := not_lapses_of_stays hlease
    have hr : ¬ s.reclaims i := fun ⟨hne, hle⟩ => by
      have hlt := hidle.resolve_left hne
      exact absurd hlt (BitVec.not_lt.2 hle)
    have hdue : warned = (s.grant i).countedDown.warnDue s.cfg.leaseWarn := by
      rw [hwarned, Bool.eq_iff_iff, warnDue_countedDown_iff]
      simp only [Bool.and_eq_true, Bool.not_eq_true', bne_iff_ne, beq_iff_eq]
      tauto
    refine ⟨?_, fun halone a ho => queues_goTo ?_⟩
    · have hgrant := grant_tick_stands hi hc hl hr
      rw [ticked_of_stays hlease, ← hdue] at hgrant
      rw [grant_goTo]
      exact hgrant
    · have hq := queues_tickStands i s a
      rw [if_pos ho, ← hdue] at hq
      rw [tick_alone hi halone, tickRecord_stands hc hl hr]
      exact hq
  · have hq := queues_tickAll (s := s) (l := List.range 240) List.nodup_range (fun i hi => List.mem_range.1 hi) hf a
    rw [← tick_eq] at hq
    have hframe : ∀ i, s.tickNotices i (s.tick.goTo (.endDue { p with leases := true })) = s.tickNotices i s.tick := fun i =>
      tickNotices_congr rfl rfl (effectFor_after_tick hdue _ [i])
    simp only [hframe]
    exact queues_goTo hq

/-- Settles O13: the tick retires the record where its lease lapses (`grant_tick_lapses`). -/
theorem leaseExpires : Obligations.LeaseExpires := by
  intro s p i hready hdue hi
  have hexec : exec (.leaseExpired i) s = .next (s.leaseExpired i.toNat) := exec_of_ready rfl hready
  have htick : exec .leaseTick s = .next s.leaseTick := exec_of_ready rfl hready
  refine ⟨fun hstate hreload hlast => ⟨?_, fun hr ha => ?_⟩, fun hnot => ?_⟩
  · have hexpires : (decide (i.toNat < Config.grantCount) && (s.grant i.toNat).expiresAtTick) = true := by
      have hc := counted_state_iff.2 hstate
      simp only [Grant.expiresAtTick, Bool.and_eq_true, bne_iff_ne, beq_iff_eq, decide_eq_true_eq]
      exact ⟨hi, ⟨hc, hreload⟩, hlast⟩
    rw [hexec, htick, State.leaseExpired, hexpires]
    rfl
  · have hc := counted_state_iff.2 hstate
    have hl : s.lapses i.toNat := ⟨hreload, by rw [hlast]; decide⟩
    obtain ⟨hgrant, hplan⟩ := grant_tick_lapses hi hc hl hr ha
    rw [ticked_of_last hreload hlast] at hgrant
    refine ⟨s.tick.goTo (.endDue { p with leases := true }), exec_leaseTick hready hdue, endIsDue_goTo _ _,
      (grant_goTo _ _ _).trans hgrant, fun n hn => (planAt_goTo _ _ _).trans (hplan n hn), fun halone => ⟨retiredTo_goTo ?_, fun a ho => ?_⟩⟩
    · rw [tick_alone hi halone, tickRecord_lapses hc hl]
      have hwrites := writes_tickLease i.toNat s
      obtain ⟨hkstate, hkplan, -⟩ := ticked_counts s.cfg.leaseWarn (s.grant i.toNat)
      exact hwrites.retiredTo (ticked_keeps _ _).2.2 (retiredTo_retire (hwrites.canRetire hkstate hkplan hr) _)
    · rw [effectFor_after_tick hdue]
      refine queues_goTo ?_
      have hq := queues_tickRecord hi s a
      have hwarn : (s.grant i.toNat).countedDown.warnDue s.cfg.leaseWarn = false := Bool.eq_false_iff.2 (fun k => by
        obtain ⟨-, hw, -, heq⟩ := warnDue_countedDown_iff.1 k
        rw [hlast] at heq
        exact setWidth_ne_zero hw heq.symm)
      unfold State.lapses at hl
      rw [if_pos ho, tickNotices_eq hc, hwarn, if_neg Bool.false_ne_true, if_pos hl, ← tick_alone hi halone] at hq
      exact hq
  · have hstands : (decide (i.toNat < Config.grantCount) && (s.grant i.toNat).expiresAtTick) = false := by
      refine Bool.eq_false_iff.2 (fun k => ?_)
      simp only [Grant.expiresAtTick, Bool.and_eq_true, bne_iff_ne, beq_iff_eq] at k
      obtain ⟨-, ⟨hc, hreload⟩, hlast⟩ := k
      rcases hnot with ⟨hlive, hshifting⟩ | h | h
      · exact (counted_state_iff.1 hc).elim hlive hshifting
      · exact hreload h
      · exact h hlast
    rw [hexec, State.leaseExpired, hstands, takeTick_eq, partsTaken_of_endDue hdue.1]
    rfl

/-- Settles O14: the tick retires the record where its idle ticks reach the limit (`grant_tick_reclaims`). -/
theorem idleGrantsAreReclaimed : Obligations.IdleGrantsAreReclaimed := by
  intro s p i hready hdue hr hstate hlease ha hlimit
  have hi : i < 240 := hr.1
  have hc := counted_state_iff.2 hstate
  have hl := not_lapses_of_stays hlease
  have hticks : ((s.grant i).ticked s.cfg.leaseWarn).idled.idleTicks = (s.grant i).idleAfter := by
    rw [idled_idleTicks, ticked_spares]
    rfl
  refine ⟨s.tick.goTo (.endDue { p with leases := true }), exec_leaseTick hready hdue, ?_⟩
  have hboth : (s.tick.grant i).idleTicks = (s.grant i).idleAfter ∧ (s.tick.grant i).usedThisTick = false := by
    by_cases hreclaims : s.reclaims i
    · rw [(grant_tick_reclaims hi hc hl hreclaims hr ha).1]
      exact ⟨hticks, rfl⟩
    · rw [grant_tick_stands hi hc hl hreclaims]
      exact ⟨hticks, rfl⟩
  rw [grant_goTo]
  refine ⟨hboth.1, hboth.2, fun hu => hboth.1.trans (idleAfter_used hu), fun hu => hboth.1.trans (idleAfter_unused hu),
    fun hle => ?_, fun hlt => ?_⟩
  · have hreclaims : s.reclaims i := ⟨hlimit, hle⟩
    obtain ⟨hgrant, hplan⟩ := grant_tick_reclaims hi hc hl hreclaims hr ha
    refine ⟨congrArg Grant.state hgrant, congrArg Grant.planCount hgrant,
      fun n hn => (planAt_goTo _ _ _).trans (hplan n hn), fun halone a ho => ?_⟩
    have hwarned : ((s.tick.grant i).leaseWarned && !(s.grant i).leaseWarned)
        = (s.grant i).countedDown.warnDue s.cfg.leaseWarn := by
      have hw : (s.tick.grant i).leaseWarned
          = ((s.grant i).leaseWarned || (s.grant i).countedDown.warnDue s.cfg.leaseWarn) := by
        rw [hgrant, ticked_spares]
        rfl
      have hfresh : (s.grant i).countedDown.warnDue s.cfg.leaseWarn = true → (s.grant i).leaseWarned = false := fun k =>
        (warnDue_countedDown_iff.1 k).2.2.1
      rw [hw]
      cases hd : (s.grant i).countedDown.warnDue s.cfg.leaseWarn with
      | true => rw [hfresh hd]; rfl
      | false => rw [Bool.or_false, Bool.and_not_self]
    have hq := queues_tickRecord hi s a
    unfold State.lapses at hl
    unfold State.reclaims at hreclaims
    rw [if_pos ho, tickNotices_eq hc, if_neg hl, if_pos hreclaims, ← tick_alone hi halone, ← hwarned] at hq
    rw [effectFor_after_tick hdue]
    exact queues_goTo hq
  · have hstands : ¬ s.reclaims i := fun ⟨_, hle⟩ => absurd hlt (BitVec.not_lt.2 hle)
    have hgrant := grant_tick_stands hi hc hl hstands
    obtain ⟨hkstate, hkplan, -⟩ := ticked_counts s.cfg.leaseWarn (s.grant i)
    exact ⟨(congrArg Grant.state hgrant).trans hkstate, (congrArg Grant.planCount hgrant).trans hkplan⟩

end Sys2Proof.Proofs
end

section
/-! The lease tick beside the other parts of a frame end: it neither reads nor writes the taint counts, and it reads no
countdown (assumption log 8; R37, R85, R138, R142). -/

namespace Sys2Proof.Machine

variable {s t u : State} {i j a : Nat} {p q : EndParts} {x : Table (BitVec 8)} {m : Table Mailbox}

/-! ## The state under another taint table, other mailboxes and other parts taken -/

/-- The state with these parts taken of its frame end, these taint counts and these mailboxes. -/
def State.veil (q : EndParts) (x : Table (BitVec 8)) (m : Table Mailbox) (s : State) : State :=
  { s with timer := { s.timer with timing := .running (.endDue q) }, map := { s.map with taint := x }, mailboxes := m }

theorem nextFrame_of_endDue {T : Timer} (h : T.timing = .running (.endDue p)) : T.nextFrame = T.fn + 1 := by
  unfold Timer.nextFrame
  rw [h]

theorem nextFrame_veil (h : s.endIsDue p) : (s.veil q x m).timer.nextFrame = s.timer.nextFrame := by
  rw [nextFrame_of_endDue h]
  rfl

theorem veil_openIfNone (h : s.endIsDue p) : (s.veil q x m).openIfNone = s.openIfNone.veil q x m := by
  have hnext := nextFrame_veil (q := q) (x := x) (m := m) h
  have hopen : (s.veil q x m).map.openEpoch = s.map.openEpoch := rfl
  unfold State.openIfNone
  rw [hopen]
  cases s.map.openEpoch with
  | some e => rfl
  | none =>
    dsimp only
    rw [hnext]
    rfl

theorem veil_planCounts (o : Owner) (s : State) : (s.veil q x m).planCountDown o = (s.planCountDown o).veil q x m
    ∧ (s.veil q x m).planCountUp o = (s.planCountUp o).veil q x m := by
  cases o with
  | none => exact ⟨rfl, rfl⟩
  | some i =>
    have hgrant : (s.veil q x m).grant i = s.grant i := rfl
    unfold State.planCountDown State.planCountUp
    dsimp only
    rw [hgrant]
    cases (s.grant i).owner <;> exact ⟨rfl, rfl⟩

theorem veil_recordChange (h : s.endIsDue p) (n : Nat) (y : Owner) :
    (s.veil q x m).recordChange n y = (s.recordChange n y).veil q x m := by
  have hplan : (s.veil q x m).planAt n = s.planAt n := rfl
  unfold State.recordChange
  dsimp only
  rw [hplan, veil_openIfNone h]
  by_cases hne : s.planAt n = y
  · rw [if_pos hne, if_pos hne]
  · rw [if_neg hne, if_neg hne]
    generalize s.openIfNone = w
    have hrecord : (w.veil q x m).updMap (SlotMap.recordIn n (s.planAt n) y)
        = (w.updMap (SlotMap.recordIn n (s.planAt n) y)).veil q x m := rfl
    rw [hrecord, (veil_planCounts _ _).1, (veil_planCounts _ _).2]

theorem veil_recordAll (h : s.endIsDue p) (l : List Nat) (y : Owner) :
    (s.veil q x m).recordAll l y = (s.recordAll l y).veil q x m := by
  induction l generalizing s with
  | nil => rfl
  | cons n l ih =>
    have hdue : (s.recordChange n y).endIsDue p := by
      unfold State.endIsDue
      rw [timer_recordChange]
      exact h
    rw [recordAll_cons, recordAll_cons, veil_recordChange h, ih hdue]

theorem veil_clearPlan (h : s.endIsDue p) (i : Nat) : (s.veil q x m).clearPlan i = (s.clearPlan i).veil q x m :=
  veil_recordAll h (s.planSlots i) none

theorem veil_rederive (i : Nat) (s : State) : (s.veil q x m).rederive i = (s.rederive i).veil q x m := by
  have hgrant : (s.veil q x m).grant i = s.grant i := rfl
  have hderived : (s.veil q x m).derived i = s.derived i := rfl
  unfold State.rederive
  rw [hgrant, hderived]
  split <;> rfl

/-! ## A rule for the mailboxes that the tick does not notice -/

/-- A change of the mailboxes that leaves their queues and goes with what a lease tick does to them. -/
structure TickBlind (K : StationState → Mailbox → Mailbox) : Prop where
  queue : ∀ st m, (K st m).queue = m.queue
  mark : ∀ st m, K st { m with queue := markSyncLost m.queue } = { K st m with queue := markSyncLost (K st m).queue }
  append : ∀ st m n, K st (Mailbox.append n m) = Mailbox.append n (K st m)
  emptied : ∀ m, K .absent m.emptied = (K .leaving m).emptied

theorem tickBlind_id : TickBlind (fun _ m => m) := ⟨fun _ _ => rfl, fun _ _ => rfl, fun _ _ _ => rfl, fun _ => rfl⟩

theorem countDown_unsent (st : StationState) : SendState.unsent.countDown st = .unsent := by
  unfold SendState.countDown
  split <;> rfl

theorem tickBlind_frameEnd : TickBlind Mailbox.frameEnd where
  queue _ _ := rfl
  mark _ _ := rfl
  append st m n := by
    unfold Mailbox.frameEnd Mailbox.append
    dsimp only
    split
    · rw [countDown_unsent]
    · rfl
  emptied m := by
    unfold Mailbox.frameEnd Mailbox.emptied
    dsimp only
    rw [countDown_unsent]

/-- The second state is the first under a veil, its mailboxes those of the first changed by the rule. -/
structure Veiled (K : StationState → Mailbox → Mailbox) (q : EndParts) (s t : State) : Prop where
  veil : ∃ x m, t = s.veil q x m
  due : ∃ p, s.endIsDue p
  boxes : ∀ a, t.mailbox a = K (s.station a).state (s.mailbox a)

section veiled
variable {K : StationState → Mailbox → Mailbox}

/-- An operation that leaves the mailboxes, the stations' states and the timer, and does not see the veil. -/
theorem Veiled.of_veil (h : Veiled K q s t) {f : State → State}
    (hf : ∀ x m p, s.endIsDue p → f (s.veil q x m) = (f s).veil q x m) (hm : (f s).mailboxes = s.mailboxes)
    (hs : ∀ a, ((f s).station a).state = (s.station a).state) (ht : (f s).timer = s.timer) : Veiled K q (f s) (f t) := by
  obtain ⟨⟨x, m, rfl⟩, ⟨p, hp⟩, hboxes⟩ := h
  refine ⟨⟨x, m, hf x m p hp⟩, ⟨p, ?_⟩, fun a => ?_⟩
  · unfold State.endIsDue
    rw [ht]
    exact hp
  · rw [hf x m p hp, hs, State.mailbox_congr hm]
    exact hboxes a

theorem Veiled.updGrant (h : Veiled K q s t) (i : Nat) (f : Grant → Grant) : Veiled K q (s.updGrant i f) (t.updGrant i f) :=
  h.of_veil (fun _ _ _ _ => rfl) rfl (fun _ => rfl) rfl

theorem Veiled.clearPlan (h : Veiled K q s t) (i : Nat) : Veiled K q (s.clearPlan i) (t.clearPlan i) := by
  refine h.of_veil (f := State.clearPlan i) (fun _ _ _ hp => veil_clearPlan hp i) (by rw [planOnly_clearPlan s i]) (fun a => ?_)
    (by rw [planOnly_clearPlan s i])
  exact (foldl_keeps (P := fun u : State => (u.station a).state = (s.station a).state ∧ (u.station a).held = (s.station a).held)
    (fun n u hu => kept_station u a _ _ n none hu) (s.planSlots i) ⟨rfl, rfl⟩).1

theorem Veiled.rederive (h : Veiled K q s t) (i : Nat) : Veiled K q (s.rederive i) (t.rederive i) :=
  h.of_veil (f := State.rederive i) (fun _ _ _ _ => veil_rederive i s) (by rw [rederive_eq])
    (fun a => congrArg Station.state (State.station_congr (by rw [rederive_eq]) a)) (by rw [rederive_eq])

section reads
variable (h : Veiled K q s t)
include h

theorem Veiled.grant (i : Nat) : t.grant i = s.grant i := by
  obtain ⟨x, m, rfl⟩ := h.veil
  rfl

theorem Veiled.station (a : Nat) : t.station a = s.station a := by
  obtain ⟨x, m, rfl⟩ := h.veil
  rfl

theorem Veiled.cfg : t.cfg = s.cfg := by
  obtain ⟨x, m, rfl⟩ := h.veil
  rfl

theorem Veiled.derived (i : Nat) : t.derived i = s.derived i := by
  obtain ⟨x, m, rfl⟩ := h.veil
  rfl

theorem Veiled.handle (i : Nat) : t.handle i = s.handle i := by
  obtain ⟨x, m, rfl⟩ := h.veil
  rfl

theorem Veiled.retiredIds (l : List Nat) : t.retiredIds l = s.retiredIds l := by
  obtain ⟨x, m, rfl⟩ := h.veil
  rfl

theorem Veiled.effectFor (l : List Nat) : t.effectFor l = s.effectFor l := by
  obtain ⟨x, m, rfl⟩ := h.veil
  obtain ⟨p, hp⟩ := h.due
  have hnext := nextFrame_veil (q := q) (x := x) (m := m) hp
  have hopen : (s.veil q x m).map.openEpoch = s.map.openEpoch := rfl
  have hsealed : (s.veil q x m).map.sealedEpoch = s.map.sealedEpoch := rfl
  unfold State.effectFor
  rw [hopen, hsealed, hnext]

end reads

theorem Veiled.foldl {α : Type} {f : State → α → State} (hf : ∀ s t x, Veiled K q s t → Veiled K q (f s x) (f t x))
    (l : List α) (h : Veiled K q s t) : Veiled K q (l.foldl f s) (l.foldl f t) := by
  induction l generalizing s t with
  | nil => exact h
  | cons x l ih => exact ih (hf s t x h)

theorem veil_updMailbox (a : Nat) (f : Mailbox → Mailbox) (s : State) : (s.veil q x m).updMailbox a f =
    (s.updMailbox a f).veil q x (m.put Mailbox.fresh a (f (m.get Mailbox.fresh a))) := rfl

theorem veil_enterAbsent (a : Nat) (s : State) : (s.veil q x m).enterAbsent a =
    (s.enterAbsent a).veil q x (m.put Mailbox.fresh a (m.get Mailbox.fresh a).emptied) := by
  have hmove : ∀ (u : State) k, (u.veil q x k).moveStation a .absent = (u.moveStation a .absent).veil q x k := fun _ _ => rfl
  have hstation : ∀ (u : State) f k, (u.veil q x k).updStation a f = (u.updStation a f).veil q x k := fun _ _ _ => rfl
  unfold State.enterAbsent State.emptyQueue
  rw [veil_updMailbox, hstation, hmove]

/-- A change of one mailbox that agrees with the rule. -/
theorem Veiled.updMailbox (h : Veiled K q s t) {f : Mailbox → Mailbox}
    (hf : K (s.station a).state (f (s.mailbox a)) = f (K (s.station a).state (s.mailbox a))) :
    Veiled K q (s.updMailbox a f) (t.updMailbox a f) := by
  have hboxes := h.boxes
  obtain ⟨x, m, rfl⟩ := h.veil
  refine ⟨⟨x, _, veil_updMailbox a f s⟩, h.due, fun b => ?_⟩
  have hstation : (s.updMailbox a f).station b = s.station b := rfl
  rw [State.mailbox_updMailbox, State.mailbox_updMailbox, hstation]
  split
  · rename_i hb
    rw [hb, hf, hboxes]
  · exact hboxes b

theorem Veiled.raise (h : Veiled K q s t) (f : Flag) : Veiled K q (s.raise f) (t.raise f) :=
  h.of_veil (fun _ _ _ _ => rfl) rfl (fun _ => rfl) rfl

variable (hK : TickBlind K)
include hK

theorem Veiled.handNotice (h : Veiled K q s t) (a : Nat) (n : Notice) : Veiled K q (s.handNotice a n) (t.handNotice a n) := by
  have hqueue : (t.mailbox a).queue = (s.mailbox a).queue := by rw [h.boxes, hK.queue]
  unfold State.handNotice
  rw [h.station, hqueue]
  split
  · split
    · exact (h.updMailbox (hK.mark _ _)).raise _
    · exact h.updMailbox (hK.append _ _ _)
  · exact h

theorem Veiled.noticeOwner (h : Veiled K q s t) (i : Nat) (n : Notice) : Veiled K q (s.noticeOwner i n) (t.noticeOwner i n) := by
  unfold State.noticeOwner
  rw [h.grant]
  split
  · exact h
  · exact h.handNotice hK _ n

theorem Veiled.noticeRevoked (h : Veiled K q s t) (why : Option RevokeReason) (o : Option Nat) (g : Handle) (i : Nat) :
    Veiled K q (s.noticeRevoked why o g i) (t.noticeRevoked why o g i) := by
  unfold State.noticeRevoked
  split
  · rw [h.station, h.effectFor]
    split
    · exact h
    · exact h.handNotice hK _ _
  · exact h

theorem Veiled.departIfDone (h : Veiled K q s t) (a : Nat) : Veiled K q (s.departIfDone a) (t.departIfDone a) := by
  have hboxes := h.boxes
  unfold State.departIfDone
  rw [h.station]
  split
  · rename_i hl
    obtain ⟨x, m, rfl⟩ := h.veil
    obtain ⟨p, hp⟩ := h.due
    have hdue : (s.enterAbsent a).endIsDue p := by
      unfold State.endIsDue
      rw [enterAbsent_eq]
      exact hp
    refine ⟨⟨x, _, veil_enterAbsent a s⟩, ⟨p, hdue⟩, fun b => ?_⟩
    rw [mailbox_enterAbsent, mailbox_enterAbsent, station_enterAbsent]
    split
    · rename_i hb
      rw [hboxes, hl.1]
      exact (hK.emptied _).symm
    · exact hboxes b
  · exact h

theorem Veiled.freeRecord (h : Veiled K q s t) (i : Nat) : Veiled K q (s.freeRecord i) (t.freeRecord i) := by
  have hqueue : ∀ {u v : State}, Veiled K q u v →
      Veiled K q { u with freeQueue := u.freeQueue ++ [i] } { v with freeQueue := v.freeQueue ++ [i] } := fun hu =>
    hu.of_veil (f := fun w => { w with freeQueue := w.freeQueue ++ [i] }) (fun _ _ _ _ => rfl) rfl (fun _ => rfl) rfl
  have hfreed := hqueue (h.updGrant i (fun g => Grant.freeWith (g.generation + 1)))
  unfold State.freeRecord
  rw [h.grant]
  dsimp only
  cases (s.grant i).owner with
  | none => exact hfreed
  | some a =>
    have hheld := hfreed.of_veil (f := State.updStation a (fun r => { r with held := r.held - 1 })) (fun _ _ _ _ => rfl) rfl
      (fun b => by rw [State.station_updStation]; split <;> simp [*]) rfl
    exact hheld.departIfDone hK a

theorem Veiled.freeIfDue (h : Veiled K q s t) (i : Nat) : Veiled K q (s.freeIfDue i) (t.freeIfDue i) := by
  unfold State.freeIfDue
  rw [h.grant, h.derived]
  split
  · exact h.freeRecord hK i
  · exact h

theorem Veiled.complete (h : Veiled K q s t) (touched : List Nat) : Veiled K q (s.complete touched) (t.complete touched) :=
  Veiled.foldl (fun _ _ i hu => hu.freeIfDue hK i) _ (Veiled.foldl (fun _ _ i hu => hu.rederive i) _ h)

theorem Veiled.retire (h : Veiled K q s t) (named : List Nat) (why : Option RevokeReason) :
    Veiled K q (s.retire named why).1 (t.retire named why).1 := by
  rw [retire_eq, retire_eq, h.retiredIds]
  have hretiring : Veiled K q (s.retiring named) (t.retiring named) := by
    unfold State.retiring State.clearPlans
    rw [h.retiredIds]
    exact (Veiled.foldl (fun _ _ i hu => hu.clearPlan i) _ h).complete hK _
  have hsame : (fun (u : State) i => u.noticeRevoked why (t.grant i).owner (t.handle i) i)
      = (fun (u : State) i => u.noticeRevoked why (s.grant i).owner (s.handle i) i) := by
    funext u i
    rw [h.grant, h.handle]
  dsimp only
  rw [hsame]
  exact Veiled.foldl (fun _ _ i hu => hu.noticeRevoked hK why (s.grant i).owner (s.handle i) i) _ hretiring

/-! ## The lease tick under the veil -/

theorem Veiled.tickLease (h : Veiled K q s t) (i : Nat) : Veiled K q (s.tickLease i) (t.tickLease i) := by
  have hdown := h.updGrant i Grant.countedDown
  unfold State.tickLease
  dsimp only
  rw [hdown.grant, hdown.cfg, hdown.handle]
  split
  · exact (hdown.noticeOwner hK i _).updGrant i _
  · exact hdown

theorem Veiled.tickIdle (h : Veiled K q s t) (i : Nat) : Veiled K q (s.tickIdle i) (t.tickIdle i) := by
  have hidled := h.updGrant i Grant.idled
  unfold State.tickIdle
  dsimp only
  rw [hidled.grant, hidled.cfg]
  split
  · exact hidled.retire hK [i] _
  · exact hidled

theorem Veiled.tickRecord (h : Veiled K q s t) (i : Nat) : Veiled K q (s.tickRecord i) (t.tickRecord i) := by
  have hlease := h.tickLease hK i
  unfold State.tickRecord
  dsimp only
  rw [h.grant, hlease.grant]
  split
  · split
    · exact hlease.retire hK [i] _
    · exact hlease.tickIdle hK i
  · exact h

theorem Veiled.tick (h : Veiled K q s t) : Veiled K q s.tick t.tick :=
  Veiled.foldl (fun _ _ i hu => hu.tickRecord hK i) _ h

end veiled

end Sys2Proof.Machine
end

section
/-! The parts of a frame end taken as steps of their own (O11; assumption log 8, R37, R138, R142). -/

namespace Sys2Proof.Machine

variable {s t u : State} {a : Nat} {p q : EndParts}

/-! ## Tables in canonical form -/

section tables
variable {α : Type} [DecidableEq α] {d : α} {x y : Table α}

theorem Table.mem_cells_of_get (hx : x.wf d = true) (h : ∀ k, x.get d k = y.get d k) {c : Nat × α}
    (hc : c ∈ x.cells) : c ∈ y.cells := by
  have hget : y.get d c.1 = c.2 := (h c.1).symm.trans (Table.get_of_mem hx hc)
  have hne : c.2 ≠ d := ((Table.wf_iff d x).1 hx).2 c hc
  rcases Table.get_cases d y c.1 with ⟨hd, -⟩ | hm
  · exact absurd (hget.symm.trans hd) hne
  · rw [hget] at hm
    exact hm

/-- Two canonical tables with the same entries are the same. -/
theorem Table.eq_of_get (hx : x.wf d = true) (hy : y.wf d = true) (h : ∀ k, x.get d k = y.get d k) : x = y := by
  have hsorted := fun (z : Table α) (hz : z.wf d = true) => ((Table.wf_iff d z).1 hz).1
  have hnodup : ∀ z : Table α, z.wf d = true → z.cells.Nodup := fun z hz =>
    (hsorted z hz).imp (fun hlt he => absurd (congrArg Prod.fst he) (Nat.ne_of_lt hlt))
  have hperm : x.cells.Perm y.cells := (List.perm_ext_iff_of_nodup (hnodup x hx) (hnodup y hy)).2
    (fun c => ⟨Table.mem_cells_of_get hx h, Table.mem_cells_of_get hy (fun k => (h k).symm)⟩)
  have hcells : x.cells = y.cells := hperm.eq_of_pairwise (fun b c _ _ hbc hcb => absurd hbc (Nat.lt_asymm hcb))
    (hsorted x hx) (hsorted y hy)
  cases x
  cases y
  exact congrArg Table.mk hcells

end tables

theorem kept_mailboxes_wf : Kept (fun s => s.mailboxes.wf Mailbox.fresh = true) where
  grant _ _ _ h := h
  station _ _ _ h := h
  ask _ _ _ h := h
  mailbox a _ _ _ h := Table.wf_put h a _
  flag _ _ h := h
  freeQueue _ _ h := h
  askQueue _ _ _ h := h
  record _ _ s _ h := by
    rw [State.mailboxes_updMap, State.mailboxes_openIfNone]
    exact h

/-! ## The lease tick of a frame end, before and after another part -/

/-- The Lease Unit's part of a frame end, where it is not taken (R85). -/
def State.tickPart (p : EndParts) (s : State) : State := if p.leases then s else s.tickIfDue

theorem Kept.tickPart {P : State → Prop} (K : Kept P) (p : EndParts) (h : P s) : P (s.tickPart p) := by
  unfold State.tickPart State.tickIfDue
  split
  · exact h
  · split
    · exact K.tick h
    · exact h

theorem Veiled.tickPart {K : StationState → Mailbox → Mailbox} (hK : TickBlind K) (h : Veiled K q s t)
    (hp : q.leases = p.leases) : Veiled K q (s.tickPart p) (t.tickPart q) := by
  have hframe : t.timer.tickFrame = s.timer.tickFrame := by
    obtain ⟨x, m, rfl⟩ := h.veil
    rfl
  unfold State.tickPart State.tickIfDue
  rw [hp, hframe]
  split
  · exact h
  · split
    · exact h.tick hK
    · exact h

/-- The tick and the decrement of the taint counts, in either order. -/
theorem tickPart_decayTaint (h : s.endIsDue p) (hw : s.mailboxes.wf Mailbox.fresh = true) (hq : q.leases = p.leases) :
    (s.decayTaint.goTo (.endDue q)).tickPart q = (s.tickPart p).decayTaint.goTo (.endDue q) := by
  have hveiled : Veiled (fun _ m => m) q s (s.decayTaint.goTo (.endDue q)) := ⟨⟨_, _, rfl⟩, ⟨p, h⟩, fun _ => rfl⟩
  have hdecay : (s.decayTaint.goTo (.endDue q)).map.taint = s.decayTaint.map.taint := rfl
  have hboxes : (s.decayTaint.goTo (.endDue q)).mailboxes.wf Mailbox.fresh = true := hw
  have htick := hveiled.tickPart tickBlind_id hq
  have htaint := (kept_taint s.map.taint).tickPart p rfl
  have htaint' := (kept_taint s.decayTaint.map.taint).tickPart q hdecay
  have hwf := kept_mailboxes_wf.tickPart p hw
  have hwf' := kept_mailboxes_wf.tickPart q hboxes
  generalize (s.decayTaint.goTo (.endDue q)).tickPart q = t at *
  generalize s.tickPart p = u at *
  have hsame : t.mailboxes = u.mailboxes := Table.eq_of_get hwf' hwf htick.boxes
  obtain ⟨x, m, rfl⟩ := htick.veil
  have hx : x = s.decayTaint.map.taint := htaint'
  have hm : m = u.mailboxes := hsame
  have hu : u.decayTaint.map.taint = s.decayTaint.map.taint := by
    have hmap : ∀ v : State, v.decayTaint.map.taint = v.map.taint.mapValues 0 (fun _ c => decNonzero c) := fun _ => rfl
    rw [hmap, hmap, htaint]
  rw [hx, hm, ← hu]
  rfl

/-- The tick and the notices' countdowns, in either order. -/
theorem tickPart_countDownNotices (h : s.endIsDue p) (hw : s.mailboxes.wf Mailbox.fresh = true) (hq : q.leases = p.leases) :
    (s.countDownNotices.goTo (.endDue q)).tickPart q = (s.tickPart p).countDownNotices.goTo (.endDue q) := by
  have hveiled : Veiled Mailbox.frameEnd q s (s.countDownNotices.goTo (.endDue q)) :=
    ⟨⟨_, _, rfl⟩, ⟨p, h⟩, State.mailbox_countDownNotices hw⟩
  have hkept : (s.countDownNotices.goTo (.endDue q)).map.taint = s.map.taint := rfl
  have hboxes : (s.countDownNotices.goTo (.endDue q)).mailboxes.wf Mailbox.fresh = true := Table.wf_mapValues hw _
  have htick := hveiled.tickPart tickBlind_frameEnd hq
  have htaint := (kept_taint s.map.taint).tickPart p rfl
  have htaint' := (kept_taint s.map.taint).tickPart q hkept
  have hwf := kept_mailboxes_wf.tickPart p hw
  have hwf' := kept_mailboxes_wf.tickPart q hboxes
  generalize (s.countDownNotices.goTo (.endDue q)).tickPart q = t at *
  generalize s.tickPart p = u at *
  have hsame : t.mailboxes = u.countDownNotices.mailboxes := Table.eq_of_get hwf' (Table.wf_mapValues hwf _) (fun b => by
    have hb := htick.boxes b
    rw [← State.mailbox_countDownNotices hwf b] at hb
    exact hb)
  obtain ⟨x, m, rfl⟩ := htick.veil
  have hx : x = u.map.taint := htaint'.trans htaint.symm
  have hm : m = u.countDownNotices.mailboxes := hsame
  rw [hx, hm]
  rfl

/-! ## The parts of a frame end -/

/-- The Slot Map's part of a frame end, where it is not taken (R37). -/
def State.decayPart (p : EndParts) (s : State) : State := if p.taint then s else s.decayTaint

/-- The Notice Unit's part of a frame end, where it is not taken (R138, R142). -/
def State.noticePart (p : EndParts) (s : State) : State := if p.notices then s else s.countDownNotices

theorem frameEnd_parts (p : EndParts) (s : State) :
    s.frameEnd p = (((s.tickPart p).decayPart p).noticePart p).updTimer Timer.afterFrame := rfl

theorem noticePart_goTo (p : EndParts) (f : FramePlace) (s : State) : (s.goTo f).noticePart p = (s.noticePart p).goTo f := by
  unfold State.noticePart
  split <;> rfl

theorem decayPart_goTo_countDownNotices (p : EndParts) (f : FramePlace) (s : State) :
    (s.countDownNotices.goTo f).decayPart p = (s.decayPart p).countDownNotices.goTo f := by
  unfold State.decayPart
  split <;> rfl

/-- The taint counts taken first leave the rest of the frame end (log 8). -/
theorem frameEnd_after_decay (h : s.endIsDue p) (ht : p.taint = false) (hw : s.mailboxes.wf Mailbox.fresh = true) :
    (s.decayTaint.goTo (.endDue { p with taint := true })).frameEnd { p with taint := true } = s.frameEnd p := by
  have htaken : ∀ v : State, v.decayPart { p with taint := true } = v := fun _ => rfl
  have hleft : ∀ v : State, v.decayPart p = v.decayTaint := fun v => by
    unfold State.decayPart
    rw [ht]
    rfl
  have hnotice : ∀ v : State, v.noticePart { p with taint := true } = v.noticePart p := fun _ => rfl
  rw [frameEnd_parts, tickPart_decayTaint (q := { p with taint := true }) h hw rfl, htaken, hnotice, noticePart_goTo,
    updTimer_afterFrame_goTo, frameEnd_parts, hleft]

/-- The notices' countdowns taken first leave the rest of the frame end (log 8). -/
theorem frameEnd_after_countdowns (h : s.endIsDue p) (hn : p.notices = false) (hw : s.mailboxes.wf Mailbox.fresh = true) :
    (s.countDownNotices.goTo (.endDue { p with notices := true })).frameEnd { p with notices := true } = s.frameEnd p := by
  have htaken : ∀ v : State, v.noticePart { p with notices := true } = v := fun _ => rfl
  have hleft : ∀ v : State, v.noticePart p = v.countDownNotices := fun v => by
    unfold State.noticePart
    rw [hn]
    rfl
  have hdecay : ∀ v : State, v.decayPart { p with notices := true } = v.decayPart p := fun _ => rfl
  rw [frameEnd_parts, tickPart_countDownNotices (q := { p with notices := true }) h hw rfl, htaken, hdecay,
    decayPart_goTo_countDownNotices, updTimer_afterFrame_goTo, frameEnd_parts, hleft]

/-! ## The steps -/

theorem takeDecay_due (h : s.endIsDue p) (ht : p.taint = false) :
    s.takeDecay true = s.decayTaint.goTo (.endDue { p with taint := true }) := by
  rw [takeDecay_eq, partsTaken_of_endDue h]
  exact if_pos ⟨rfl, ht⟩

theorem takeDecay_not_due {b : Bool} (h : s.endIsDue p) (hb : p.taint = true ∨ b = false) : s.takeDecay b = s := by
  rw [takeDecay_eq, partsTaken_of_endDue h]
  refine if_neg (fun ⟨htrue, hfalse⟩ => ?_)
  rcases hb with hb | hb
  · rw [hb] at hfalse
    nomatch hfalse
  · rw [hb] at htrue
    nomatch htrue

theorem takeCountdowns_due (h : s.endIsDue p) (hn : p.notices = false) :
    s.takeCountdowns true = s.countDownNotices.goTo (.endDue { p with notices := true }) := by
  rw [takeCountdowns_eq, partsTaken_of_endDue h]
  exact if_pos ⟨rfl, hn⟩

theorem takeCountdowns_not_due {b : Bool} (h : s.endIsDue p) (hb : p.notices = true ∨ b = false) :
    s.takeCountdowns b = s := by
  rw [takeCountdowns_eq, partsTaken_of_endDue h]
  refine if_neg (fun ⟨htrue, hfalse⟩ => ?_)
  rcases hb with hb | hb
  · rw [hb] at hfalse
    nomatch hfalse
  · rw [hb] at htrue
    nomatch htrue

/-- A countdown reaches 0 at this frame end where it stands at 1 and its station's countdowns run (R142). -/
theorem countdown_due_iff (h : SendState) (st : StationState) :
    (h.countdown == 1 && (h.countDown st).countdown == 0) = true ↔
      h.countdown = 1 ∧ (st = .joining ∨ st = .member) := by
  simp only [Bool.and_eq_true, beq_iff_eq]
  refine and_congr_right (fun hone => ?_)
  unfold SendState.countDown
  split
  · rename_i hst
    exact iff_of_true (by dsimp only; omega) hst
  · rename_i hst
    exact iff_of_false (by omega) hst

end Sys2Proof.Machine

namespace Sys2Proof.Proofs
open Sys2Proof.Machine

/-- Settles O11: the tick and another part of the frame end give the same state in either order (`tickPart_decayTaint`,
`tickPart_countDownNotices`). -/
theorem countsExpire : Obligations.CountsExpire := by
  intro s p hready hdue htaint hboxes
  have hexecEnd : ∀ q, (u : State) → u.ready → u.endIsDue q → exec .frameEnd u = .next (u.frameEnd q) := fun q u hu hq => by
    rw [exec_frameEnd hu, endIfDue_of_endDue hq]
  refine ⟨fun slot => ?_, fun a c due hcase => ?_⟩
  · have hexec : exec (.taintExpired slot) s = .next (s.expireTaint slot.toNat) := exec_of_ready rfl hready
    rw [State.expireTaint] at hexec
    refine ⟨fun hp hone => ?_, fun hnot => ?_⟩
    · have htrue : (s.taintAt slot.toNat == 1) = true := by rw [hone]; rfl
      rw [htrue, takeDecay_due hdue hp] at hexec
      have hreadyT : (s.decayTaint.goTo (.endDue { p with taint := true })).ready := hready
      have hdecays : s.taintDecays (s.decayTaint.goTo (.endDue { p with taint := true })) := taintDecays_decayTaint htaint
      refine ⟨_, hexec, hdecays, ?_, rfl, rfl, ?_⟩
      · rw [hdecays, hone]
        rfl
      · rw [hexecEnd _ _ hreadyT (endIsDue_goTo _ _), frameEnd_after_decay hdue hp hboxes, hexecEnd p s hready hdue]
    · rw [hexec, takeDecay_not_due hdue (hnot.imp_right (fun h => beq_eq_false_iff_ne.2 h))]
  · have hexec : ∃ b : Bool, exec c s = .next (s.takeCountdowns b) ∧ (b = true ↔ due) := by
      rcases hcase with ⟨rfl, hd⟩ | ⟨rfl, hd⟩
      · have hstep : exec (.retryCountdownExpired a) s = .next (s.expireCountdown a.toNat) := exec_of_ready rfl hready
        exact ⟨_, hstep, (countdown_due_iff _ _).trans hd.symm⟩
      · have hstep : exec (.strayHoldoffExpired a) s = .next (s.expireHoldoff a.toNat) := exec_of_ready rfl hready
        exact ⟨_, hstep, beq_iff_eq.trans hd.symm⟩
    obtain ⟨b, hexec, hb⟩ := hexec
    refine ⟨fun hp hd => ?_, fun hnot => ?_⟩
    · rw [hb.2 hd, takeCountdowns_due hdue hp] at hexec
      have hreadyT : (s.countDownNotices.goTo (.endDue { p with notices := true })).ready := hready
      refine ⟨_, hexec, noticesCountDown_countDownNotices hboxes, rfl, rfl, ?_⟩
      rw [hexecEnd _ _ hreadyT (endIsDue_goTo _ _), frameEnd_after_countdowns hdue hp hboxes, hexecEnd p s hready hdue]
    · rw [hexec, takeCountdowns_not_due hdue (hnot.imp_right (fun h => Bool.eq_false_iff.2 (fun k => h (hb.1 k))))]

end Sys2Proof.Proofs
end
